-- ==== Sys2Proof/Word.lean ====
section
/-! DEFINITION. The widths of chip8_cpu_core: bytes, 16-bit words, register and key numbers (00_scope.md R6, R9, R11). -/

namespace Sys2Proof

/-- 8 bits: a general register, a timer, a byte of memory (R6: V_WIDTH, TIMER_WIDTH). -/
abbrev Byte := BitVec 8

/-- 16 bits: `I`, `pc`, a stack entry, an opcode (R6: I_WIDTH, PC_WIDTH, STACK_WIDTH, INSTR_BYTES). -/
abbrev Word := BitVec 16

/-- 12 bits: the immediate `nnn` (R10). -/
abbrev Addr := BitVec 12

/-- A register number `x` or `y`, 0 to 15 (R10, R93: "all sixteen values are legal"). -/
abbrev Reg := Fin 16

/-- A key number, 0 to 15 (R6: NUM_KEYS). -/
abbrev Key := Fin 16

/-- VF is `V[15]` (R12, R20). -/
abbrev VF : Reg := 15

/-- `a ‖ b` of R9 on bytes: `a` in the more significant bits. -/
def joinBytes (hi lo : Byte) : Word := hi ++ lo

/-- Bits 15 to 8 of a word. -/
def hiByte (w : Word) : Byte := w.extractLsb' 8 8

/-- Bits 7 to 0 of a word. -/
def loByte (w : Word) : Byte := w.extractLsb' 0 8

end Sys2Proof
end

