-- ==== Sys2Proof/Syntax.lean ====
section
/-! DEFINITION. The 34 instructions of chip8_cpu_core (30_encoding.md R100), one constructor for each row of
spec/opcode_table.json, in the order of the table. -/

namespace Sys2Proof

/-- An instruction. Register fields `x`, `y` and the row count `n` are four bits wide, `nn` eight, `nnn` twelve
(30_encoding.md R92, R93), so every term is one that the encoding can hold. -/
inductive Instr where
  /-- 00E0 `CLS` (43_display.md R190). -/
  | cls
  /-- 00EE `RET` (40_flow.md R120). -/
  | ret
  /-- 1nnn `JP nnn` (40_flow.md R121). -/
  | jp (nnn : Addr)
  /-- 2nnn `CALL nnn` (40_flow.md R122). -/
  | call (nnn : Addr)
  /-- 3xnn `SE Vx, nn` (40_flow.md R123). -/
  | seImm (x : Reg) (nn : Byte)
  /-- 4xnn `SNE Vx, nn` (40_flow.md R124). -/
  | sneImm (x : Reg) (nn : Byte)
  /-- 5xy0 `SE Vx, Vy` (40_flow.md R125). -/
  | seReg (x y : Reg)
  /-- 6xnn `LD Vx, nn` (41_alu.md R140). -/
  | ldImm (x : Reg) (nn : Byte)
  /-- 7xnn `ADD Vx, nn` (41_alu.md R141). -/
  | addImm (x : Reg) (nn : Byte)
  /-- 8xy0 `LD Vx, Vy` (41_alu.md R143). -/
  | ldReg (x y : Reg)
  /-- 8xy1 `OR Vx, Vy` (41_alu.md R144). -/
  | orReg (x y : Reg)
  /-- 8xy2 `AND Vx, Vy` (41_alu.md R145). -/
  | andReg (x y : Reg)
  /-- 8xy3 `XOR Vx, Vy` (41_alu.md R146). -/
  | xorReg (x y : Reg)
  /-- 8xy4 `ADD Vx, Vy` (41_alu.md R147). -/
  | addReg (x y : Reg)
  /-- 8xy5 `SUB Vx, Vy` (41_alu.md R148). -/
  | sub (x y : Reg)
  /-- 8xy6 `SHR Vx, Vy` (41_alu.md R149). -/
  | shr (x y : Reg)
  /-- 8xy7 `SUBN Vx, Vy` (41_alu.md R150). -/
  | subn (x y : Reg)
  /-- 8xyE `SHL Vx, Vy` (41_alu.md R151). -/
  | shl (x y : Reg)
  /-- 9xy0 `SNE Vx, Vy` (40_flow.md R126). -/
  | sneReg (x y : Reg)
  /-- Annn `LD I, nnn` (42_index_memory.md R170). -/
  | ldI (nnn : Addr)
  /-- Bnnn `JP V0, nnn` (40_flow.md R127); under BNNN false bits 11 to 8 of `nnn` are also the register number `x`. -/
  | jpOff (nnn : Addr)
  /-- Cxnn `RND Vx, nn` (41_alu.md R152). -/
  | rnd (x : Reg) (nn : Byte)
  /-- Dxyn `DRW Vx, Vy, n` (43_display.md R191). -/
  | drw (x y : Reg) (n : Fin 16)
  /-- Ex9E `SKP Vx` (44_keypad_timers.md R210). -/
  | skp (x : Reg)
  /-- ExA1 `SKNP Vx` (44_keypad_timers.md R211). -/
  | sknp (x : Reg)
  /-- Fx07 `LD Vx, DT` (44_keypad_timers.md R213). -/
  | ldVxDt (x : Reg)
  /-- Fx0A `LD Vx, K` (44_keypad_timers.md R212). -/
  | ldVxK (x : Reg)
  /-- Fx15 `LD DT, Vx` (44_keypad_timers.md R214). -/
  | ldDtVx (x : Reg)
  /-- Fx18 `LD ST, Vx` (44_keypad_timers.md R215). -/
  | ldStVx (x : Reg)
  /-- Fx1E `ADD I, Vx` (42_index_memory.md R171). -/
  | addI (x : Reg)
  /-- Fx29 `LD F, Vx` (42_index_memory.md R172). -/
  | ldF (x : Reg)
  /-- Fx33 `LD B, Vx` (42_index_memory.md R173). -/
  | ldB (x : Reg)
  /-- Fx55 `LD [I], Vx` (42_index_memory.md R175). -/
  | stRegs (x : Reg)
  /-- Fx65 `LD Vx, [I]` (42_index_memory.md R176). -/
  | ldRegs (x : Reg)
deriving DecidableEq, Repr

end Sys2Proof
end

