-- ==== Sys2Proof/Decode.lean ====
section
/-! DEFINITION. The decoder and the encoder (30_encoding.md R91 to R105), and the opcode map of R100 as data. -/

namespace Sys2Proof

/-! ### Fields of an opcode (00_scope.md R10) -/

/-- `op[15:12]`, the family selector. -/
def opFamily (op : Word) : BitVec 4 := op.extractLsb' 12 4

/-- `x = op[11:8]`. -/
def opX (op : Word) : Reg := (op.extractLsb' 8 4).toFin

/-- `y = op[7:4]`. -/
def opY (op : Word) : Reg := (op.extractLsb' 4 4).toFin

/-- `n = op[3:0]` as the sub-opcode selector of families 5, 8 and 9. -/
def opLow (op : Word) : BitVec 4 := op.extractLsb' 0 4

/-- `n = op[3:0]` as a count of sprite rows. -/
def opN (op : Word) : Fin 16 := (opLow op).toFin

/-- `nn = op[7:0]`. -/
def opNN (op : Word) : Byte := op.extractLsb' 0 8

/-- `nnn = op[11:0]`. -/
def opNNN (op : Word) : Addr := op.extractLsb' 0 12

/-! ### The decoder -/

/-- Family 0 (R101): the whole low 12 bits select; anything else is illegal. -/
def decodeFamily0 (op : Word) : Option Instr :=
  if opNNN op = 0x0E0#12 then some .cls
  else if opNNN op = 0x0EE#12 then some .ret
  else none

/-- Family 8 (R101): `op[3:0]` selects; 8 to 13 and 15 are illegal. -/
def decodeFamily8 (op : Word) : Option Instr :=
  if opLow op = 0x0#4 then some (.ldReg (opX op) (opY op))
  else if opLow op = 0x1#4 then some (.orReg (opX op) (opY op))
  else if opLow op = 0x2#4 then some (.andReg (opX op) (opY op))
  else if opLow op = 0x3#4 then some (.xorReg (opX op) (opY op))
  else if opLow op = 0x4#4 then some (.addReg (opX op) (opY op))
  else if opLow op = 0x5#4 then some (.sub (opX op) (opY op))
  else if opLow op = 0x6#4 then some (.shr (opX op) (opY op))
  else if opLow op = 0x7#4 then some (.subn (opX op) (opY op))
  else if opLow op = 0xE#4 then some (.shl (opX op) (opY op))
  else none

/-- Family E (R101): `op[7:0]` selects. -/
def decodeFamilyE (op : Word) : Option Instr :=
  if opNN op = 0x9E#8 then some (.skp (opX op))
  else if opNN op = 0xA1#8 then some (.sknp (opX op))
  else none

/-- Family F (R101): `op[7:0]` selects. -/
def decodeFamilyF (op : Word) : Option Instr :=
  if opNN op = 0x07#8 then some (.ldVxDt (opX op))
  else if opNN op = 0x0A#8 then some (.ldVxK (opX op))
  else if opNN op = 0x15#8 then some (.ldDtVx (opX op))
  else if opNN op = 0x18#8 then some (.ldStVx (opX op))
  else if opNN op = 0x1E#8 then some (.addI (opX op))
  else if opNN op = 0x29#8 then some (.ldF (opX op))
  else if opNN op = 0x33#8 then some (.ldB (opX op))
  else if opNN op = 0x55#8 then some (.stRegs (opX op))
  else if opNN op = 0x65#8 then some (.ldRegs (opX op))
  else none

/-- The instruction of an opcode, `none` for the illegal ones (R94, R101, R105). "Decoding is a pure function of the 16 bits"
(R91). -/
def decode (op : Word) : Option Instr :=
  match opFamily op with
  | 0x0#4 => decodeFamily0 op
  | 0x1#4 => some (.jp (opNNN op))
  | 0x2#4 => some (.call (opNNN op))
  | 0x3#4 => some (.seImm (opX op) (opNN op))
  | 0x4#4 => some (.sneImm (opX op) (opNN op))
  | 0x5#4 => if opLow op = 0x0#4 then some (.seReg (opX op) (opY op)) else none
  | 0x6#4 => some (.ldImm (opX op) (opNN op))
  | 0x7#4 => some (.addImm (opX op) (opNN op))
  | 0x8#4 => decodeFamily8 op
  | 0x9#4 => if opLow op = 0x0#4 then some (.sneReg (opX op) (opY op)) else none
  | 0xA#4 => some (.ldI (opNNN op))
  | 0xB#4 => some (.jpOff (opNNN op))
  | 0xC#4 => some (.rnd (opX op) (opNN op))
  | 0xD#4 => some (.drw (opX op) (opY op) (opN op))
  | 0xE#4 => decodeFamilyE op
  | 0xF#4 => decodeFamilyF op
  | _ => none

/-- Why bytes are no instruction. -/
inductive DecodeReject where
  /-- Fewer than the two bytes of an instruction (R91). -/
  | truncated
  /-- R105: the opcode matches no row of R100; executing it is the fatal condition `UnknownInstruction`. -/
  | unknownInstruction (op : Word)
deriving DecidableEq, Repr

/-- Two bytes, the more significant first (R70, R90), and what follows them: total on any bytes, rejecting by name. -/
def decodeBytes : List Byte → Except DecodeReject (Instr × List Byte)
  | hi :: lo :: rest =>
    match decode (joinBytes hi lo) with
    | some i => .ok (i, rest)
    | none => .error (.unknownInstruction (joinBytes hi lo))
  | _ => .error .truncated

/-! ### The encoder -/

/-- The four bits of a register number or of a row count. -/
def nibble (x : Fin 16) : BitVec 4 := BitVec.ofFin x

/-- Format NNN (R92): family, then the 12-bit immediate. -/
def packNNN (family : BitVec 4) (nnn : Addr) : Word := family ++ nnn

/-- Formats XNN and X (R92): family, `x`, then eight bits. -/
def packXNN (family : BitVec 4) (x : Reg) (nn : Byte) : Word := family ++ nibble x ++ nn

/-- Formats XY and XYN (R92): family, `x`, `y`, then four bits. -/
def packXYN (family : BitVec 4) (x y : Reg) (n : BitVec 4) : Word := family ++ nibble x ++ nibble y ++ n

/-- The opcode of an instruction (R100; the last column of the format table R92). -/
def encode : Instr → Word
  | .cls => 0x00E0#16
  | .ret => 0x00EE#16
  | .jp nnn => packNNN 0x1#4 nnn
  | .call nnn => packNNN 0x2#4 nnn
  | .seImm x nn => packXNN 0x3#4 x nn
  | .sneImm x nn => packXNN 0x4#4 x nn
  | .seReg x y => packXYN 0x5#4 x y 0x0#4
  | .ldImm x nn => packXNN 0x6#4 x nn
  | .addImm x nn => packXNN 0x7#4 x nn
  | .ldReg x y => packXYN 0x8#4 x y 0x0#4
  | .orReg x y => packXYN 0x8#4 x y 0x1#4
  | .andReg x y => packXYN 0x8#4 x y 0x2#4
  | .xorReg x y => packXYN 0x8#4 x y 0x3#4
  | .addReg x y => packXYN 0x8#4 x y 0x4#4
  | .sub x y => packXYN 0x8#4 x y 0x5#4
  | .shr x y => packXYN 0x8#4 x y 0x6#4
  | .subn x y => packXYN 0x8#4 x y 0x7#4
  | .shl x y => packXYN 0x8#4 x y 0xE#4
  | .sneReg x y => packXYN 0x9#4 x y 0x0#4
  | .ldI nnn => packNNN 0xA#4 nnn
  | .jpOff nnn => packNNN 0xB#4 nnn
  | .rnd x nn => packXNN 0xC#4 x nn
  | .drw x y n => packXYN 0xD#4 x y (nibble n)
  | .skp x => packXNN 0xE#4 x 0x9E#8
  | .sknp x => packXNN 0xE#4 x 0xA1#8
  | .ldVxDt x => packXNN 0xF#4 x 0x07#8
  | .ldVxK x => packXNN 0xF#4 x 0x0A#8
  | .ldDtVx x => packXNN 0xF#4 x 0x15#8
  | .ldStVx x => packXNN 0xF#4 x 0x18#8
  | .addI x => packXNN 0xF#4 x 0x1E#8
  | .ldF x => packXNN 0xF#4 x 0x29#8
  | .ldB x => packXNN 0xF#4 x 0x33#8
  | .stRegs x => packXNN 0xF#4 x 0x55#8
  | .ldRegs x => packXNN 0xF#4 x 0x65#8

/-- The bytes of an instruction as memory holds them: the more significant first (R70, R110). -/
def encodeBytes (i : Instr) : List Byte := [hiByte (encode i), loByte (encode i)]

/-! ### The opcode map of R100, as data

Written from the `mask` and `match` columns alone, so that it checks the decoder and the encoder above. -/

/-- The columns `mask` and `match` of R100: "an opcode `op` is the instruction exactly when `op & mask = match`". -/
abbrev OpcodeRow := Word × Word

/-- The row of R100 that an instruction stands for, as (mask, match). -/
def opcodeRow : Instr → OpcodeRow
  | .cls => (0xFFFF, 0x00E0)
  | .ret => (0xFFFF, 0x00EE)
  | .jp _ => (0xF000, 0x1000)
  | .call _ => (0xF000, 0x2000)
  | .seImm _ _ => (0xF000, 0x3000)
  | .sneImm _ _ => (0xF000, 0x4000)
  | .seReg _ _ => (0xF00F, 0x5000)
  | .ldImm _ _ => (0xF000, 0x6000)
  | .addImm _ _ => (0xF000, 0x7000)
  | .ldReg _ _ => (0xF00F, 0x8000)
  | .orReg _ _ => (0xF00F, 0x8001)
  | .andReg _ _ => (0xF00F, 0x8002)
  | .xorReg _ _ => (0xF00F, 0x8003)
  | .addReg _ _ => (0xF00F, 0x8004)
  | .sub _ _ => (0xF00F, 0x8005)
  | .shr _ _ => (0xF00F, 0x8006)
  | .subn _ _ => (0xF00F, 0x8007)
  | .shl _ _ => (0xF00F, 0x800E)
  | .sneReg _ _ => (0xF00F, 0x9000)
  | .ldI _ => (0xF000, 0xA000)
  | .jpOff _ => (0xF000, 0xB000)
  | .rnd _ _ => (0xF000, 0xC000)
  | .drw _ _ _ => (0xF000, 0xD000)
  | .skp _ => (0xF0FF, 0xE09E)
  | .sknp _ => (0xF0FF, 0xE0A1)
  | .ldVxDt _ => (0xF0FF, 0xF007)
  | .ldVxK _ => (0xF0FF, 0xF00A)
  | .ldDtVx _ => (0xF0FF, 0xF015)
  | .ldStVx _ => (0xF0FF, 0xF018)
  | .addI _ => (0xF0FF, 0xF01E)
  | .ldF _ => (0xF0FF, 0xF029)
  | .ldB _ => (0xF0FF, 0xF033)
  | .stRegs _ => (0xF0FF, 0xF055)
  | .ldRegs _ => (0xF0FF, 0xF065)

/-- The 34 rows of R100 in order. -/
def opcodeTable : List OpcodeRow :=
  [(0xFFFF, 0x00E0), (0xFFFF, 0x00EE), (0xF000, 0x1000), (0xF000, 0x2000), (0xF000, 0x3000), (0xF000, 0x4000),
   (0xF00F, 0x5000), (0xF000, 0x6000), (0xF000, 0x7000)] ++
  [(0xF00F, 0x8000), (0xF00F, 0x8001), (0xF00F, 0x8002), (0xF00F, 0x8003), (0xF00F, 0x8004), (0xF00F, 0x8005),
   (0xF00F, 0x8006), (0xF00F, 0x8007), (0xF00F, 0x800E)] ++
  [(0xF00F, 0x9000), (0xF000, 0xA000), (0xF000, 0xB000), (0xF000, 0xC000), (0xF000, 0xD000), (0xF0FF, 0xE09E),
   (0xF0FF, 0xE0A1)] ++
  [(0xF0FF, 0xF007), (0xF0FF, 0xF00A), (0xF0FF, 0xF015), (0xF0FF, 0xF018), (0xF0FF, 0xF01E), (0xF0FF, 0xF029),
   (0xF0FF, 0xF033), (0xF0FF, 0xF055), (0xF0FF, 0xF065)]

/-- `op & mask = match` for a row of R100. -/
def rowCovers (r : OpcodeRow) (op : Word) : Bool := decide (op &&& r.1 = r.2)

/-! ### The host's view of a table word -/

/-- The opcode held in the low `nbits` bits of `w` as spec/opcode_table.json numbers them: bit 0 is the least significant bit
of the one 16-bit word (00_scope.md R9); bits above `nbits` are 0. -/
def tableWord (nbits w : Nat) : Word := BitVec.ofNat 16 (w % 2 ^ nbits)

/-- The instruction that the decoder reads from a table word, laid out as memory holds it, the more significant byte at the
lower address (20_memory.md R70). -/
def decodeTableWord (nbits w : Nat) : Option Instr :=
  match decodeBytes [hiByte (tableWord nbits w), loByte (tableWord nbits w)] with
  | .ok (i, _) => some i
  | .error _ => none

end Sys2Proof
end

