-- ==== Sys2Proof/Config.lean ====
section
/-! DEFINITION. What is fixed for one instance of the hardware (00_scope.md R7, R8) and the free values: the environment
draws of R16. -/

namespace Sys2Proof

/-- The parameters of an instance: the five quirk toggles of 00_scope.md R8 and the open parameters FONT_BASE and FONT_DATA
of R7. "They are configuration, not state": no instruction and no host operation changes them. Every toggle may have either
value. The bound on `fontBase` is `Config.wf` (WellFormed.lean). -/
structure Config where
  /-- VF_RESET: VF is written 0 after 8xy1, 8xy2, 8xy3. -/
  vfReset : Bool
  /-- SHIFT_USE_VY: the source of 8xy6 and 8xyE is Vy, else Vx. -/
  shiftUseVy : Bool
  /-- BNNN: Bnnn adds V0, else Vx with x = bits 11 to 8 of the opcode. -/
  bnnn : Bool
  /-- STORE_LOAD_INCREMENTS_I: Fx55 and Fx65 increase I by x + 1. -/
  storeLoadIncrementsI : Bool
  /-- DISPLAY_WAIT: a draw is retried until `DisplayReady()`. -/
  displayWait : Bool
  /-- FONT_BASE: the address of the first font byte. -/
  fontBase : Nat
  /-- FONT_DATA: the 80 bytes of the sixteen glyphs, five rows each, top row first (20_memory.md R65). -/
  fontData : Vector Byte 80
deriving DecidableEq, Repr

/-- The `n`-th answer of `RandomByte()` (00_scope.md R16, 41_alu.md R152): "an 8-bit value chosen by the environment, a fresh
one at each evaluation, under no law". A FREE VALUE: it has no body, so nothing can be proved of its value (log 4). -/
opaque Config.randomByte : Nat → Byte

/-- How many answers of `DisplayReady()` are false before the `n`-th true one (00_scope.md R16, 43_display.md R192): "a model must
allow either answer at every execution of Dxyn under DISPLAY_WAIT", under the fairness of 50_host_interface.md R248 (a). A FREE
VALUE: it has no body, so nothing can be proved of its value (log 5). The answers are `displayReady` of Machine/Environment.lean. -/
opaque Config.displayHold : Nat → Nat

end Sys2Proof
end

