-- ==== Sys2Proof/Machine/ResetConfig.lean ====
section
/-! DEFINITION. The parameters of the one instance whose reset state is `State.reset`. The spec leaves all of them open
(00_scope.md R7, R8); every statement about the machine is made for all of them. -/

namespace Sys2Proof.Machine

/-- The default of FONT_DATA (20_memory.md R67), one glyph a line. PRESUMED: the spec marks the table as general knowledge
(log 3). -/
def defaultFont : Vector Byte 80 :=
  ⟨#[0xF0, 0x90, 0x90, 0x90, 0xF0,
     0x20, 0x60, 0x20, 0x20, 0x70,
     0xF0, 0x10, 0xF0, 0x80, 0xF0,
     0xF0, 0x10, 0xF0, 0x10, 0xF0,
     0x90, 0x90, 0xF0, 0x10, 0x10,
     0xF0, 0x80, 0xF0, 0x10, 0xF0,
     0xF0, 0x80, 0xF0, 0x90, 0xF0,
     0xF0, 0x10, 0x20, 0x40, 0x40,
     0xF0, 0x90, 0xF0, 0x90, 0xF0,
     0xF0, 0x90, 0xF0, 0x10, 0xF0,
     0xF0, 0x90, 0xF0, 0x90, 0x90,
     0xE0, 0x90, 0xE0, 0x90, 0xE0,
     0xF0, 0x80, 0x80, 0x80, 0xF0,
     0xE0, 0x90, 0x90, 0x90, 0xE0,
     0xF0, 0x80, 0xF0, 0x80, 0xF0,
     0xF0, 0x80, 0xF0, 0x80, 0x80], by rfl⟩

/-- The instance that `State.reset` is the reset state of. The toggles: DESIGN CHOICE, all false (log 2). FONT_BASE: PRESUMED,
the default 0x050 that 00_scope.md R7 names (log 3). -/
def resetConfig : Config where
  vfReset := false
  shiftUseVy := false
  bnnn := false
  storeLoadIncrementsI := false
  displayWait := false
  fontBase := 0x050
  fontData := defaultFont

end Sys2Proof.Machine
end

