-- ==== Sys2Proof/WellFormed.lean ====
section
/-! DEFINITION. What may be ill-formed: the parameters of an instance and a program image.

An instruction cannot be: the types of the constructors of `Instr` are exactly the widths of the encoding's fields
(30_encoding.md R93: "all sixteen values are legal in every instruction that has the field"), so there is no check on `Instr`
that a term could fail. -/

namespace Sys2Proof

/-- PROG_BASE (00_scope.md R6): where a program is loaded. -/
def progBase : Nat := 0x200

/-- MEM_SIZE (00_scope.md R6). -/
def memSize : Nat := 4096

/-- PROG_MAX (00_scope.md R6): the largest loadable program in bytes, MEM_SIZE less PROG_BASE. -/
def progMax : Nat := memSize - progBase

/-- GLYPH_COUNT times GLYPH_BYTES (00_scope.md R6): the bytes of the font. -/
def fontBytes : Nat := 80

/-- 00_scope.md R7: "an integer with 0 ≤ FONT_BASE and FONT_BASE + 80 ≤ 0x200". -/
def Config.wf (c : Config) : Bool := decide (c.fontBase + fontBytes ≤ progBase)

/-- A program image that the loader accepts: at most PROG_MAX bytes (20_memory.md R68, 50_host_interface.md R240). -/
def programFits (bytes : List Byte) : Bool := decide (bytes.length ≤ progMax)

end Sys2Proof
end

