-- ==== Sys2Proof/Machine/State.lean ====
section
/-! DEFINITION. The architectural state of chip8_cpu_core (10_state.md), its reset value (R46), and why a step could stop. -/

namespace Sys2Proof.Machine

/-- `fault_code` (10_state.md R44): a 3-bit register whose values 5 to 7 "never occur". Code numbers: `FaultCode.toBits`. -/
inductive FaultCode where
  /-- 0: no fatal condition has occurred. -/
  | noFault
  /-- 1: raised at decode by an opcode that matches no row (60_exceptions.md R261). -/
  | unknownInstruction
  /-- 2: raised by 00EE when the stack is empty (R262). -/
  | stackUnderflow
  /-- 3: raised by 2nnn when the stack is full (R264). -/
  | stackOverflow
  /-- 4: raised by Ex9E and ExA1 when `V[x] > 15` (R265). -/
  | badKeyIndex
deriving DecidableEq, Repr

/-- The code numbers of 10_state.md R44. -/
def FaultCode.toBits : FaultCode → BitVec 3
  | .noFault => 0
  | .unknownInstruction => 1
  | .stackUnderflow => 2
  | .stackOverflow => 3
  | .badKeyIndex => 4

/-- `mem`: the bytes that differ from the reset image, by strictly rising address (Machine/Memory.lean, `Memory.wf`). -/
abbrev Memory := List Host.Cell

/-- `fb[r][c]` (10_state.md R38): 32 rows from the top of 64 cells from the left, true meaning the pixel is set. -/
abbrev Framebuffer := Vector (Vector Bool 64) 32

/-- The complete state of the block (10_state.md, the tuple at its head), with the instance's parameters beside it and the two
counters of consumed environment draws. -/
structure State where
  /-- V0 to VF (R20). -/
  V : Vector Byte 16
  /-- The index register (R23). -/
  I : Word
  /-- The program counter (R24). -/
  pc : Word
  /-- How many stack entries are in use, 0 to 16 (R33). -/
  sp : Fin 17
  /-- The return stack (R33). -/
  stack : Vector Word 16
  /-- The 4096 bytes of memory (R37). -/
  mem : Memory
  /-- The delay timer (R30). -/
  DT : Byte
  /-- The sound timer (R31). -/
  ST : Byte
  /-- The key states, true meaning pressed (R39). -/
  key : Vector Bool 16
  /-- The waiting-for-key latch (R40). -/
  wait : Bool
  /-- The released-key slot (R41). -/
  rel : Option Key
  /-- The framebuffer (R38). -/
  fb : Framebuffer
  /-- The fault latch (R44): true after a fatal condition. -/
  halted : Bool
  /-- The fault latch (R44): which condition. -/
  faultCode : FaultCode
  /-- The fault latch (R44): the opcode that raised it. -/
  faultOp : Word
  /-- The instance's parameters (00_scope.md R7, R8): no state of the spec, carried here read-only. DESIGN CHOICE (log 1). -/
  config : Config
  /-- How many `RandomByte()` draws have been consumed: the model's own counter (log 4). -/
  randDraws : Nat
  /-- How many `DisplayReady()` draws have been consumed: the model's own counter (log 5). -/
  readyDraws : Nat
deriving DecidableEq, Repr

/-- Why the machine stops with a fault: it never does. The fatal conditions of 60_exceptions.md are states of this machine
(`State.halted`), which the model takes as next states, so there is no constructor. -/
inductive Fault where
deriving DecidableEq, Repr

/-- Why the model refuses an instruction. -/
inductive Refusal where
  /-- Raised by an arm of `exec` whose instruction has no meaning yet; safe (no behaviour is claimed). No arm raises it. -/
  | notModelled (mnemonic : String)
deriving DecidableEq, Repr

/-- The state after reset of an instance with parameters `c` (10_state.md R46, 70_reset_and_hazards.md R290 to R292). Memory
lists nothing: an unlisted address reads as the reset image (Machine/Memory.lean, `resetByte`). The draw counters are the
model's own: DESIGN CHOICE 0 (log 4, log 5). -/
def State.resetWith (c : Config) : State where
  V := Vector.replicate 16 0
  I := 0
  pc := 0x0200
  sp := 0
  stack := Vector.replicate 16 0
  mem := []
  DT := 0
  ST := 0
  key := Vector.replicate 16 false
  wait := false
  rel := none
  fb := Vector.replicate 32 (Vector.replicate 64 false)
  halted := false
  faultCode := .noFault
  faultOp := 0
  config := c
  randDraws := 0
  readyDraws := 0

/-- The machine right after reset, for the instance `resetConfig` (log 2, log 3). -/
def State.reset : State := State.resetWith resetConfig

end Sys2Proof.Machine
end

