-- ==== Sys2Proof/Machine/Memory.lean ====
section
/-! DEFINITION. The memory block (20_memory.md): 4096 bytes held as the list of those that differ from the reset image. -/

namespace Sys2Proof.Machine

/-- The reset image (70_reset_and_hazards.md R291): "`mem[FONT_BASE + i] = FONT_DATA[i]` for i in 0..79, and 0 everywhere
else". It is also what an address that the memory does not list reads as (log 12). -/
def resetByte (c : Config) (a : Nat) : Byte :=
  if h : c.fontBase ≤ a ∧ a < c.fontBase + 80 then c.fontData[a - c.fontBase]'(by omega) else 0

/-- `addr & 0xFFF` (R61): the index into `mem` of a 16-bit address. -/
def memIndex (a : Word) : Nat := (a &&& 0x0FFF).toNat

/-- The canonical form: addresses strictly rising and below 4096, and no byte equal to what its address reads as unlisted. -/
def Memory.wf (c : Config) : Memory → Bool
  | [] => true
  | (a, v) :: m =>
    decide (a < memSize) && decide (v ≠ resetByte c a) && m.all (fun e => decide (a < e.1)) && Memory.wf c m

/-- `mem[a]`. -/
def Memory.lookup (c : Config) : Memory → Nat → Byte
  | [], a => resetByte c a
  | (b, v) :: m, a => if a = b then v else Memory.lookup c m a

/-- The entry that holds `v` at `a`: none where `v` is what `a` reads as unlisted. -/
def Memory.entry (c : Config) (a : Nat) (v : Byte) : Memory :=
  if v = resetByte c a then [] else [(a, v)]

/-- `mem[a] <- v`, keeping the canonical form. -/
def Memory.store (c : Config) (a : Nat) (v : Byte) : Memory → Memory
  | [] => Memory.entry c a v
  | (b, w) :: m =>
    if b < a then (b, w) :: Memory.store c a v m
    else if b = a then Memory.entry c a v ++ m
    else Memory.entry c a v ++ (b, w) :: m

end Sys2Proof.Machine
end

