-- ==== Sys2Proof/Machine/Ops.lean ====
section
/-! DEFINITION. The named operations that the meanings share: registers, pc, stack, memory, timers, taking a fatal condition and
the only way out of one. -/

namespace Sys2Proof.Machine

/-- What a step or a meaning answers. -/
abbrev Result := Host.Outcome State Fault Refusal

/-! ### Registers -/

/-- Reads `V[x]` (10_state.md R20: none is hardwired). -/
def State.getV (s : State) (x : Reg) : Byte := s.V[x]

/-- `V[x] <- b`. -/
def State.setV (s : State) (x : Reg) (b : Byte) : State := { s with V := s.V.set x b }

/-- `I <- w`, all 16 bits, unmasked (10_state.md R23). -/
def State.setI (s : State) (w : Word) : State := { s with I := w }

/-- `DT <- b` (10_state.md R30). -/
def State.setDT (s : State) (b : Byte) : State := { s with DT := b }

/-- `ST <- b` (10_state.md R31). -/
def State.setST (s : State) (b : Byte) : State := { s with ST := b }

/-! ### Program counter -/

/-- `pc <- w`, all 16 bits, unmasked (10_state.md R24). -/
def State.setPc (s : State) (w : Word) : State := { s with pc := w }

/-- `pc <- pc + 2` modulo 65536: the advance of the fetch (30_encoding.md R90). -/
def State.advance (s : State) : State := s.setPc (s.pc + 2)

/-- "skip next instr": `pc <- pc + 2` once more (00_scope.md R17, 40_flow.md R128); nothing where the condition fails. -/
def State.skipIf (s : State) (b : Bool) : State := if b then s.setPc (s.pc + 2) else s

/-- "rewind": `pc <- pc − 2`, back on the instruction itself (00_scope.md R17). -/
def State.rewind (s : State) : State := s.setPc (s.pc - 2)

/-! ### Memory (20_memory.md R61 to R63) -/

/-- `MemRead(addr, 1)`. -/
def State.readByte (s : State) (a : Word) : Byte := Memory.lookup s.config s.mem (memIndex a)

/-- `MemRead(addr, 2)`: the byte at the lower address is the more significant; each address is masked on its own. -/
def State.readWord (s : State) (a : Word) : Word := joinBytes (s.readByte a) (s.readByte (a + 1))

/-- `MemWrite(addr, 1, v)`: every masked address is writable, the font included (R69). -/
def State.writeByte (s : State) (a : Word) (v : Byte) : State :=
  { s with mem := Memory.store s.config (memIndex a) v s.mem }

/-- Writes the bytes at rising addresses from `a`. -/
def State.writeBytes (s : State) (a : Word) : List Byte → State
  | [] => s
  | b :: bs => (s.writeByte a b).writeBytes (a + 1) bs

/-! ### Stack (10_state.md R34, R35) -/

/-- `Push(v)`; `none` where `sp = 16`, the fatal condition StackOverflow. -/
def State.push (s : State) (v : Word) : Option State :=
  if h : s.sp.val = 16 then none
  else some { s with stack := s.stack.set s.sp.val v (by omega), sp := ⟨s.sp.val + 1, by omega⟩ }

/-- `Pop()`: the entry below `sp`, which is not cleared, and the state with `sp` one lower; `none` where `sp = 0`, the fatal
condition StackUnderflow. -/
def State.pop (s : State) : Option (Word × State) :=
  if h : s.sp.val = 0 then none
  else some (s.stack[s.sp.val - 1]'(by omega), { s with sp := ⟨s.sp.val - 1, by omega⟩ })

/-! ### Framebuffer (10_state.md R38) -/

/-- `fb <- f`. -/
def State.setFb (s : State) (f : Framebuffer) : State := { s with fb := f }

/-- `fb[r][c]`. -/
def State.pixel (s : State) (r : Fin 32) (c : Fin 64) : Bool := s.fb[r][c]

/-! ### Key latch (10_state.md R39 to R41) -/

/-- `key[k] <- b`. -/
def State.setKey (s : State) (k : Key) (b : Bool) : State := { s with key := s.key.set k b }

/-- `wait <- w` and `rel <- r`. -/
def State.setWait (s : State) (w : Bool) (r : Option Key) : State := { s with wait := w, rel := r }

/-! ### Environment draws (00_scope.md R16): the model's own counters (log 4, log 5) -/

/-- One `RandomByte()` has been consumed. -/
def State.usedRandom (s : State) : State := { s with randDraws := s.randDraws + 1 }

/-- One `DisplayReady()` has been consumed. -/
def State.usedReady (s : State) : State := { s with readyDraws := s.readyDraws + 1 }

/-! ### Fatal conditions -/

/-- Taking a fatal condition (60_exceptions.md R263): "exactly this", the three fields of the fault latch. `op` is "the 16-bit
opcode fetched in this cycle". Nothing is saved anywhere else and control goes nowhere; pc stays where the fetch left it
(R268). -/
def State.raiseFatal (s : State) (c : FaultCode) (op : Word) : State :=
  { s with halted := true, faultCode := c, faultOp := op }

/-- Reset, "the only way out of `halted`" (60_exceptions.md R271; 70_reset_and_hazards.md R290): every piece of state to its
reset value, the configuration kept. The counters of consumed draws are no state of the block and go on, so that a draw after
reset is a fresh one (log 6). -/
def resetCore (s : State) : State :=
  { State.resetWith s.config with randDraws := s.randDraws, readyDraws := s.readyDraws }

/-- Puts the fault latch back to "no fatal condition has occurred". No operation of the hardware does only this; it serves
`State.withFetchWord` (log 9). -/
def State.clearLatch (s : State) : State := { s with halted := false, faultCode := .noFault, faultOp := 0 }

end Sys2Proof.Machine
end

