-- ==== Sys2Proof/Machine/Operands.lean ====
section
/-! DEFINITION. Operand forms: immediates, the quirk-selected registers, data addresses, key numbers, decimal digits and the
sprite origin. -/

namespace Sys2Proof.Machine

/-- `zext_16(nnn)` (30_encoding.md R93, 40_flow.md R129): an absolute target or an index value. -/
def zextAddr (nnn : Addr) : Word := nnn.setWidth 16

/-- `zext_16(b)`: an 8-bit register as an addend of a 16-bit sum. -/
def zextByte (b : Byte) : Word := b.setWidth 16

/-- The register that Bnnn adds (40_flow.md R127): V0 if BNNN, else Vx, where `x` is the top nibble of `nnn`. -/
def offsetReg (c : Config) (nnn : Addr) : Reg := if c.bnnn then 0 else (nnn.extractLsb' 8 4).toFin

/-- The source of the shifts (41_alu.md R149, R151): Vy if SHIFT_USE_VY, else Vx. -/
def shiftSource (s : State) (x y : Reg) : Byte := if s.config.shiftUseVy then s.getV y else s.getV x

/-- The address of byte `k` of a data access (42_index_memory.md R174): `I + k` in 16 bits; the access masks it. -/
def dataAddr (base : Word) (k : Nat) : Word := base + BitVec.ofNat 16 k

/-- The address of the glyph of digit `b` (42_index_memory.md R172): the whole byte is multiplied, no nibble mask. -/
def glyphAddr (c : Config) (b : Byte) : Word := BitVec.ofNat 16 c.fontBase + 5 * zextByte b

/-- What Fx55 and Fx65 leave in `I` (42_index_memory.md R175, R176). -/
def indexAfterBlock (s : State) (x : Reg) : Word :=
  if s.config.storeLoadIncrementsI then s.I + BitVec.ofNat 16 (x.val + 1) else s.I

/-- The key that Ex9E and ExA1 name (44_keypad_timers.md R216): `V[x]` whole; `none` above 15, the fatal condition
BadKeyIndex. -/
def keyIndex (s : State) (x : Reg) : Option Key :=
  if h : (s.getV x).toNat < 16 then some ⟨(s.getV x).toNat, h⟩ else none

/-- `zext_8` of a key number (44_keypad_timers.md R212). -/
def keyByte (k : Key) : Byte := BitVec.ofNat 8 k.val

/-- The hundreds of `v`, 0 to 2 (42_index_memory.md R173). -/
def hundredsDigit (v : Byte) : Byte := v / 100

/-- The tens of `v`, 0 to 9 (R173). -/
def tensDigit (v : Byte) : Byte := (v / 10) % 10

/-- The units of `v`, 0 to 9 (R173). -/
def unitsDigit (v : Byte) : Byte := v % 10

/-- The column of a sprite's top-left pixel (43_display.md R193): the origin wraps once. -/
def originCol (s : State) (x : Reg) : Nat := (s.getV x).toNat % 64

/-- The row of a sprite's top-left pixel (R193). -/
def originRow (s : State) (y : Reg) : Nat := (s.getV y).toNat % 32

end Sys2Proof.Machine
end

