-- ==== Sys2Proof/Machine/Flags.lean ====
section
/-! DEFINITION. What VF receives (10_state.md R28), and the order of the result write and the flag write (41_alu.md R142). -/

namespace Sys2Proof.Machine

/-- A flag value is 0 or 1, zero-extended to 8 bits (R28). -/
def flagByte (b : Bool) : Byte := if b then 1 else 0

/-- 8xy4: "1 if `V[x] + V[y]` as integers exceeds 255, else 0". -/
def carryFlag (a b : Byte) : Byte := flagByte (decide (a.toNat + b.toNat > 255))

/-- 8xy5 and 8xy7: 1 where the minuend `a` is greater than or equal to the subtrahend `b` (41_alu.md R153, "no borrow"). -/
def noBorrowFlag (a b : Byte) : Byte := flagByte (decide (a.toNat ≥ b.toNat))

/-- 8xy6: bit 0 of the shift source. -/
def lowBitFlag (src : Byte) : Byte := src &&& 1

/-- 8xyE: bit 7 of the shift source. -/
def highBitFlag (src : Byte) : Byte := (src >>> 7) &&& 1

/-- 8xy1 to 8xy7 list the result first and the flag last: with `x = 15` VF ends as the flag (R142). -/
def writeResultThenFlag (s : State) (x : Reg) (r f : Byte) : State := (s.setV x r).setV VF f

/-- 8xy6 and 8xyE list the flag first and the result last: with `x = 15` VF ends as the shifted value (R142). -/
def writeFlagThenResult (s : State) (x : Reg) (f r : Byte) : State := (s.setV VF f).setV x r

/-- 8xy1, 8xy2, 8xy3: the result, then VF written 0 if VF_RESET, else left alone (41_alu.md R144 to R146). -/
def writeLogic (s : State) (x : Reg) (r : Byte) : State :=
  if s.config.vfReset then writeResultThenFlag s x r 0 else s.setV x r

end Sys2Proof.Machine
end

