-- ==== Sys2Proof/Machine/Alu.lean ====
section
/-! DEFINITION. Register and ALU instructions (41_alu.md). Sources are read first, then the writes are made in the order of the
contract (R142). -/

namespace Sys2Proof.Machine

/-- 6xnn, R140. -/
def execLdImm (x : Reg) (nn : Byte) (s : State) : Result := .next (s.setV x nn)

/-- 7xnn, R141: modulo 256, VF not written. -/
def execAddImm (x : Reg) (nn : Byte) (s : State) : Result := .next (s.setV x (s.getV x + nn))

/-- 8xy0, R143. -/
def execLdReg (x y : Reg) (s : State) : Result := .next (s.setV x (s.getV y))

/-- 8xy1, R144. -/
def execOr (x y : Reg) (s : State) : Result := .next (writeLogic s x (s.getV x ||| s.getV y))

/-- 8xy2, R145. -/
def execAnd (x y : Reg) (s : State) : Result := .next (writeLogic s x (s.getV x &&& s.getV y))

/-- 8xy3, R146. -/
def execXor (x y : Reg) (s : State) : Result := .next (writeLogic s x (s.getV x ^^^ s.getV y))

/-- 8xy4, R147. -/
def execAddReg (x y : Reg) (s : State) : Result :=
  .next (writeResultThenFlag s x (s.getV x + s.getV y) (carryFlag (s.getV x) (s.getV y)))

/-- 8xy5, R148: `V[x] − V[y]`. -/
def execSub (x y : Reg) (s : State) : Result :=
  .next (writeResultThenFlag s x (s.getV x - s.getV y) (noBorrowFlag (s.getV x) (s.getV y)))

/-- 8xy6, R149: the flag first, the result last. -/
def execShr (x y : Reg) (s : State) : Result :=
  .next (writeFlagThenResult s x (lowBitFlag (shiftSource s x y)) (shiftSource s x y >>> 1))

/-- 8xy7, R150: `V[y] − V[x]`. -/
def execSubn (x y : Reg) (s : State) : Result :=
  .next (writeResultThenFlag s x (s.getV y - s.getV x) (noBorrowFlag (s.getV y) (s.getV x)))

/-- 8xyE, R151: the flag first, the result last. -/
def execShl (x y : Reg) (s : State) : Result :=
  .next (writeFlagThenResult s x (highBitFlag (shiftSource s x y)) (shiftSource s x y <<< 1))

/-- What Cxnn does with the draw `b` (R152); one draw is consumed (50_host_interface.md R235). -/
def randomWith (b : Byte) (x : Reg) (nn : Byte) (s : State) : State := s.usedRandom.setV x (b &&& nn)

/-- Cxnn, R152: `RandomByte()` is a free value (log 4). -/
def execRnd (x : Reg) (nn : Byte) (s : State) : Result := .next (randomWith (Config.randomByte s.randDraws) x nn s)

end Sys2Proof.Machine
end

