-- ==== Sys2Proof/Machine/Environment.lean ====
section
/-! DEFINITION. The answers of `DisplayReady()` (00_scope.md R16, 43_display.md R192), with the one law they obey, the fairness of
50_host_interface.md R248 (a). -/

namespace Sys2Proof.Machine

/-- Where a sequence of answers stands after `n` of them: how many were true, and how many were false since the last true one.
`hold j` is how many false answers come before the `j`-th true one. -/
def answerPos (hold : Nat → Nat) : Nat → Nat × Nat
  | 0 => (0, 0)
  | n + 1 =>
    let p := answerPos hold n
    if p.2 = hold p.1 then (p.1 + 1, 0) else (p.1, p.2 + 1)

/-- The `n`-th answer of the sequence that holds a draw `hold 0` times, answers true, holds `hold 1` times, answers true, and so
on. Every sequence of this form is fair, and every fair sequence has this form (log 5). -/
def answerAt (hold : Nat → Nat) (n : Nat) : Bool := (answerPos hold n).2 == hold (answerPos hold n).1

/-- The `n`-th answer of `DisplayReady()`: a FREE VALUE but for R248 (a), "among infinitely many consecutive evaluations of
`DisplayReady()` at least one is true" (log 5). -/
def displayReady (n : Nat) : Bool := answerAt Config.displayHold n

end Sys2Proof.Machine
end

