-- ==== Sys2Proof/Machine/Display.lean ====
section
/-! DEFINITION. The framebuffer instructions 00E0 and Dxyn (43_display.md). -/

namespace Sys2Proof.Machine

/-- A framebuffer with every cell false. -/
def clearFb : Framebuffer := Vector.replicate 32 (Vector.replicate 64 false)

/-- 00E0, R190: VF unchanged, never held. -/
def execCls (s : State) : Result := .next (s.setFb clearFb)

/-- Pixel `k` of sprite byte `b`, `k` counted from the left: "most significant bit is the leftmost pixel" (R191: `b[7 − k]`). -/
def spritePixel (b : Byte) (k : Nat) : Bool := b.getLsbD (7 - k)

/-- `fb[row][col] <- not fb[row][col]`. -/
def flipCell (f : Framebuffer) (row : Fin 32) (col : Fin 64) : Framebuffer :=
  f.set row (f[row].set col (!f[row][col]))

/-- One pixel of R191: skipped where row or column is off the screen (R194), nothing for a zero bit, else the collision test on
the cell's value before it is flipped (R195). `acc` is the framebuffer and `hit` so far. -/
def plotPixel (b : Byte) (row x0 : Nat) (acc : Framebuffer × Bool) (k : Nat) : Framebuffer × Bool :=
  if h : row < 32 ∧ x0 + k < 64 then
    if spritePixel b k then
      (flipCell acc.1 ⟨row, h.1⟩ ⟨x0 + k, h.2⟩, acc.2 || acc.1[row][x0 + k])
    else acc
  else acc

/-- One sprite row of R191: eight pixels from the left. -/
def plotRow (b : Byte) (row x0 : Nat) (acc : Framebuffer × Bool) : Framebuffer × Bool :=
  (List.range 8).foldl (plotPixel b row x0) acc

/-- The loop of R191 over `n` sprite rows, top row first; `sprite r` is the byte of row `r`. -/
def plotSprite (sprite : Nat → Byte) (n y0 x0 : Nat) (f : Framebuffer) : Framebuffer × Bool :=
  (List.range n).foldl (fun acc r => plotRow (sprite r) (y0 + r) x0 acc) (f, false)

/-- A draw that is performed (R191): `V[x]`, `V[y]` and `I` are read before VF is written; VF is written last, 1 or 0. -/
def drawSprite (x y : Reg) (n : Fin 16) (s : State) : State :=
  let drawn := plotSprite (fun r => s.readByte (dataAddr s.I r)) n.val (originRow s y) (originCol s x) s.fb
  (s.setFb drawn.1).setV VF (flagByte drawn.2)

/-- What Dxyn does with the answer `ready` (R191, R192): under DISPLAY_WAIT the answer is consumed and a draw that is not ready
is held, "with no side effects" but the rewind; without it the answer is not consulted. -/
def drawWith (ready : Bool) (x y : Reg) (n : Fin 16) (s : State) : State :=
  if s.config.displayWait then
    if ready then drawSprite x y n s.usedReady else s.usedReady.rewind
  else drawSprite x y n s

/-- Dxyn, R191 to R196: `DisplayReady()` is a free value under the fairness of R248 (log 5). -/
def execDrw (x y : Reg) (n : Fin 16) (s : State) : Result :=
  .next (drawWith (displayReady s.readyDraws) x y n s)

end Sys2Proof.Machine
end

