-- ==== Sys2Proof/Machine/Flow.lean ====
section
/-! DEFINITION. Control transfer (40_flow.md): RET, JP, CALL, the four register skips, JP_OFF. In every meaning `pc` is already
the address of the instruction plus 2 (00_scope.md R17). -/

namespace Sys2Proof.Machine

/-- 00EE, R120: `pc <- Pop()`; StackUnderflow where the stack is empty. -/
def execRet (s : State) : Result :=
  match s.pop with
  | some (target, t) => .next (t.setPc target)
  | none => .next (s.raiseFatal .stackUnderflow (encode .ret))

/-- 1nnn, R121. -/
def execJp (nnn : Addr) (s : State) : Result := .next (s.setPc (zextAddr nnn))

/-- 2nnn, R122: pushes the address of the CALL plus 2; StackOverflow where the stack is full, and nothing is pushed. -/
def execCall (nnn : Addr) (s : State) : Result :=
  match s.push s.pc with
  | some t => .next (t.setPc (zextAddr nnn))
  | none => .next (s.raiseFatal .stackOverflow (encode (.call nnn)))

/-- 3xnn, R123. -/
def execSeImm (x : Reg) (nn : Byte) (s : State) : Result := .next (s.skipIf (s.getV x == nn))

/-- 4xnn, R124. -/
def execSneImm (x : Reg) (nn : Byte) (s : State) : Result := .next (s.skipIf (s.getV x != nn))

/-- 5xy0, R125. -/
def execSeReg (x y : Reg) (s : State) : Result := .next (s.skipIf (s.getV x == s.getV y))

/-- 9xy0, R126. -/
def execSneReg (x y : Reg) (s : State) : Result := .next (s.skipIf (s.getV x != s.getV y))

/-- Bnnn, R127: a 16-bit sum, not masked to 12 bits. -/
def execJpOff (nnn : Addr) (s : State) : Result :=
  .next (s.setPc (zextAddr nnn + zextByte (s.getV (offsetReg s.config nnn))))

end Sys2Proof.Machine
end

