-- ==== Sys2Proof/Machine/Index.lean ====
section
/-! DEFINITION. Index register, loads and stores (42_index_memory.md). -/

namespace Sys2Proof.Machine

/-- Annn, R170. -/
def execLdI (nnn : Addr) (s : State) : Result := .next (s.setI (zextAddr nnn))

/-- Fx1E, R171: modulo 65536, VF not written. -/
def execAddI (x : Reg) (s : State) : Result := .next (s.setI (s.I + zextByte (s.getV x)))

/-- Fx29, R172: no memory is accessed. -/
def execLdF (x : Reg) (s : State) : Result := .next (s.setI (glyphAddr s.config (s.getV x)))

/-- Fx33, R173: the three decimal digits at `I`, `I + 1`, `I + 2`; `I` unchanged. -/
def execLdB (x : Reg) (s : State) : Result :=
  .next (((s.writeByte (dataAddr s.I 0) (hundredsDigit (s.getV x))).writeByte (dataAddr s.I 1)
    (tensDigit (s.getV x))).writeByte (dataAddr s.I 2) (unitsDigit (s.getV x)))

/-- `MemWrite(base + i, 1, V[i])` for the `count` registers from V0, ascending (R175). -/
def storeRegs (base : Word) (s : State) : Nat → State
  | 0 => s
  | i + 1 => (storeRegs base s i).writeByte (dataAddr base i) (s.getV (Fin.ofNat 16 i))

/-- `V[i] <- MemRead(base + i, 1)` for the `count` registers from V0, ascending (R176). -/
def loadRegs (base : Word) (s : State) : Nat → State
  | 0 => s
  | i + 1 => (loadRegs base s i).setV (Fin.ofNat 16 i) (s.readByte (dataAddr base i))

/-- Fx55, R175: x + 1 bytes; the addresses use the value of `I` before the instruction. -/
def execStRegs (x : Reg) (s : State) : Result :=
  .next ((storeRegs s.I s (x.val + 1)).setI (indexAfterBlock s x))

/-- Fx65, R176: x + 1 bytes; registers above `x` are unchanged. -/
def execLdRegs (x : Reg) (s : State) : Result :=
  .next ((loadRegs s.I s (x.val + 1)).setI (indexAfterBlock s x))

end Sys2Proof.Machine
end

