-- ==== Sys2Proof/Machine/Keypad.lean ====
section
/-! DEFINITION. Keypad and timer instructions (44_keypad_timers.md). -/

namespace Sys2Proof.Machine

/-- Ex9E, R210: BadKeyIndex where `V[x] > 15` (R216). -/
def execSkp (x : Reg) (s : State) : Result :=
  match keyIndex s x with
  | some k => .next (s.skipIf s.key[k])
  | none => .next (s.raiseFatal .badKeyIndex (encode (.skp x)))

/-- ExA1, R211: BadKeyIndex where `V[x] > 15` (R216). -/
def execSknp (x : Reg) (s : State) : Result :=
  match keyIndex s x with
  | some k => .next (s.skipIf (!s.key[k]))
  | none => .next (s.raiseFatal .badKeyIndex (encode (.sknp x)))

/-- Fx0A, R212: delivers the recorded release and clears latch and slot, or sets the latch and rewinds. -/
def execLdVxK (x : Reg) (s : State) : Result :=
  match s.rel with
  | some k => .next ((s.setV x (keyByte k)).setWait false none)
  | none => .next (s.setWait true none).rewind

/-- Fx07, R213. -/
def execLdVxDt (x : Reg) (s : State) : Result := .next (s.setV x s.DT)

/-- Fx15, R214. -/
def execLdDtVx (x : Reg) (s : State) : Result := .next (s.setDT (s.getV x))

/-- Fx18, R215. -/
def execLdStVx (x : Reg) (s : State) : Result := .next (s.setST (s.getV x))

end Sys2Proof.Machine
end

