-- ==== Sys2Proof/Machine/Fetch.lean ====
section
/-! DEFINITION. The fetch (30_encoding.md R90), how an instruction word comes to stand where it reads, and what a cycle
answers the host (50_host_interface.md R232 to R234). -/

namespace Sys2Proof.Machine

/-- `op <- MemRead(pc, 2)`, big-endian, each byte address masked on its own (R90, 20_memory.md R61, R70). -/
def fetchOp (s : State) : Word := s.readWord s.pc

/-- Stores an opcode where the next cycle fetches, its more significant byte first, and takes the core out of a halt, which a
fetch needs (log 9). -/
def placeOp (s : State) (op : Word) : State :=
  let t := s.writeBytes s.pc [hiByte op, loByte op]
  if t.halted then t.clearLatch else t

/-- What a cycle answers its caller (50_host_interface.md R234). -/
inductive CycleOutcome where
  | ok
  | failed (c : FaultCode)
deriving DecidableEq, Repr

/-- The outcome of a cycle, read from the state it ended in: `Failed(fault_code)` where the core is halted, by this cycle or by
an earlier one (50_host_interface.md R232, R233; 60_exceptions.md R263), else `Ok` (log 7). -/
def cycleOutcome (t : State) : CycleOutcome := if t.halted then .failed t.faultCode else .ok

end Sys2Proof.Machine
end

