-- ==== Sys2Proof/Machine/Step.lean ====
section
/-! DEFINITION. One cycle of the core (50_host_interface.md R232). -/

namespace Sys2Proof.Machine

/-- `cycle` (R232): nothing while halted (R233); else fetch, advance pc, decode and execute; an opcode that matches no row raises
UnknownInstruction after the advance (60_exceptions.md R261). -/
def step (s : State) : Host.Outcome State Fault Refusal :=
  if s.halted then .next s
  else
    match decode (fetchOp s) with
    | some i => exec i s.advance
    | none => .next (s.advance.raiseFatal .unknownInstruction (fetchOp s))

/-- `s` with the instruction of a table word (`tableWord`) standing where `step` fetches next (log 9). -/
def State.withFetchWord (s : State) (nbits w : Nat) : State := placeOp s (tableWord nbits w)

end Sys2Proof.Machine
end

