-- ==== Sys2Proof/Machine/HostOps.lean ====
section
/-! DEFINITION. What the host does to the block between cycles, and what it reads (50_host_interface.md). -/

namespace Sys2Proof.Machine

/-- `if T > 0 then T <- T − 1` (R236): floored at 0. -/
def decay (t : Byte) : Byte := if t = 0 then 0 else t - 1

/-- `decrease_timers`, a tick (R236): both timers by 1, floored at 0; nothing else changes. -/
def decreaseTimers (s : State) : State := (s.setDT (decay s.DT)).setST (decay s.ST)

/-- `press_key(k)` (R237): the key bit only. -/
def pressKey (k : Key) (s : State) : State := s.setKey k true

/-- `release_key(k)` (R238): the key bit, and the released-key slot where a wait is pending. -/
def releaseKey (k : Key) (s : State) : State :=
  let t := s.setKey k false
  if s.wait then t.setWait true (some k) else t

/-- What `load_program` answers (R239, R240). -/
inductive LoadOutcome where
  | ok
  | programTooLarge
deriving DecidableEq, Repr

/-- `load_program(bytes)` (R239): `mem[0x200 + i] <- bytes[i]`, nothing else; more than 3584 bytes change nothing at all and
answer ProgramTooLarge, which is not latched (R240). -/
def loadProgram (bytes : List Byte) (s : State) : State × LoadOutcome :=
  if programFits bytes then (s.writeBytes (BitVec.ofNat 16 progBase) bytes, .ok) else (s, .programTooLarge)

/-- The sound read-out `sound_on = (ST > 0)` (R242). -/
def soundOn (s : State) : Bool := decide (0 < s.ST.toNat)

/-- The fault read-out (R243): `halted`, `fault_code`, `fault_op`. -/
def faultReadout (s : State) : Bool × FaultCode × Word := (s.halted, s.faultCode, s.faultOp)

end Sys2Proof.Machine
end

