-- ==== Sys2Proof/Machine/Agents.lean ====
section
/-! DEFINITION. The agents and the one total order of their steps (50_host_interface.md R230, R231, R245; 20_memory.md R78). -/

namespace Sys2Proof.Machine

/-- The steps that change the state of the block (R230). -/
inductive AgentStep where
  | cycle
  | tick
  | press (k : Key)
  | release (k : Key)
  | load (bytes : List Byte)
  | reset
deriving DecidableEq, Repr

/-- One cycle as a function of the state; a step that stopped would leave the state as it is (no step does). -/
def cycle (s : State) : State :=
  match step s with
  | .next t => t
  | .fault _ => s
  | .refused _ => s

/-- One atomic step of one agent (R231). -/
def agentStep (a : AgentStep) (s : State) : State :=
  match a with
  | .cycle => cycle s
  | .tick => decreaseTimers s
  | .press k => pressKey k s
  | .release k => releaseKey k s
  | .load bytes => (loadProgram bytes s).1
  | .reset => resetCore s

/-- A finite run: agent steps in the order the host chose, any order being legal (R245, log 10). -/
def runAgents (l : List AgentStep) (s : State) : State := l.foldl (fun t a => agentStep a t) s

/-- An infinite run: "any finite or infinite sequence of the steps of rule R230 is a legal run" (R245). Step `n` of the sequence
`f` is taken in state `runAt f s n`, and `runAt f s (n + 1)` is the state after it. -/
def runAt (f : Nat → AgentStep) (s : State) : Nat → State
  | 0 => s
  | n + 1 => agentStep (f n) (runAt f s n)

end Sys2Proof.Machine
end

