-- ==== Sys2Proof/Safety.lean ====
section
/-! DEFINITION. The terms that claims use: frames, the invariant of a run, what an ended or a failed run is, and the spec's own
tables (10_state.md R22, R25; 60_exceptions.md R260), written from the spec and not from the meanings. -/

namespace Sys2Proof.Machine

/-! ### Frames -/

/-- The parts of the state, as frames name them. -/
inductive StatePart where
  | regs | index | pc | stack | memory | delay | sound | keys | waitSlot | screen | latch | config | randDraws | readyDraws
deriving DecidableEq, Repr

/-- Part `p` reads in `t` as it does in `s`; memory by its read of every byte. -/
def Unchanged (p : StatePart) (s t : State) : Prop :=
  match p with
  | .regs => ∀ r : Reg, t.getV r = s.getV r
  | .index => t.I = s.I
  | .pc => t.pc = s.pc
  | .stack => t.sp = s.sp ∧ ∀ j : Fin 16, t.stack[j] = s.stack[j]
  | .memory => ∀ a : Word, t.readByte a = s.readByte a
  | .delay => t.DT = s.DT
  | .sound => t.ST = s.ST
  | .keys => ∀ k : Key, t.key[k] = s.key[k]
  | .waitSlot => t.wait = s.wait ∧ t.rel = s.rel
  | .screen => ∀ (r : Fin 32) (c : Fin 64), t.pixel r c = s.pixel r c
  | .latch => t.halted = s.halted ∧ t.faultCode = s.faultCode ∧ t.faultOp = s.faultOp
  | .config => t.config = s.config
  | .randDraws => t.randDraws = s.randDraws
  | .readyDraws => t.readyDraws = s.readyDraws

/-- Every part that `ps` does not list is unchanged. -/
def OnlyChanges (ps : List StatePart) (s t : State) : Prop := ∀ p : StatePart, p ∉ ps → Unchanged p s t

/-- Every register but `x` is unchanged. -/
def SameRegsBut (x : Reg) (s t : State) : Prop := ∀ r : Reg, r ≠ x → t.getV r = s.getV r

/-! ### Invariants -/

/-- 10_state.md R42: "`rel ≠ none` implies `wait = true`". -/
def WaitConsistent (s : State) : Prop := s.rel ≠ none → s.wait = true

/-- 10_state.md R44: a halted core names a condition; while `halted` is false the code is None and `fault_op` is 0. -/
def LatchConsistent (s : State) : Prop :=
  (s.halted = true → s.faultCode ≠ .noFault) ∧ (s.halted = false → s.faultCode = .noFault ∧ s.faultOp = 0)

/-- What holds in every state of a run: legal parameters, memory in canonical form, R42 and R44. -/
def Inv (s : State) : Prop :=
  s.config.wf = true ∧ Memory.wf s.config s.mem = true ∧ WaitConsistent s ∧ LatchConsistent s

/-- The states of runs: any agent steps, in any order, from the reset state of a legal instance. -/
def Reachable (s : State) : Prop := ∃ (c : Config) (l : List AgentStep), c.wf = true ∧ s = runAgents l (State.resetWith c)

/-! ### The environment -/

/-- 50_host_interface.md R248 (a): "among infinitely many consecutive evaluations of `DisplayReady()` at least one is true". -/
def FairAnswers (f : Nat → Bool) : Prop := ∀ n : Nat, ∃ m : Nat, n ≤ m ∧ f m = true

/-- A schedule in which the core never stops getting cycles; nothing promises one (50_host_interface.md R245). -/
def CyclesForever (f : Nat → AgentStep) : Prop := ∀ n : Nat, ∃ m : Nat, n ≤ m ∧ f m = .cycle

/-- A schedule without a reset and without a load: ticks and key events may fall anywhere between the cycles. -/
def NoResetNoLoad (f : Nat → AgentStep) : Prop := ∀ n : Nat, f n ≠ .reset ∧ ∀ bytes : List Byte, f n ≠ .load bytes

/-! ### The end of a run -/

/-- A safe run: no fatal condition has been raised, so the core still executes (60_exceptions.md R273: the only distinction is
running versus halted). -/
def Running (s : State) : Prop := s.halted = false

/-- 50_host_interface.md R247: "a program finished when `pc` holds the address of a 1nnn instruction whose target is that same
address". -/
def AtSelfJump (s : State) : Prop := Running s ∧ ∃ nnn : Addr, decode (fetchOp s) = some (.jp nnn) ∧ s.pc = zextAddr nnn

/-- Execute phases in a row, without the fetch advances between them. -/
def runExec (l : List Instr) (s : State) : State :=
  l.foldl (fun t i => match exec i t with | .next u => u | .fault _ => t | .refused _ => t) s

/-- No step of a run resets the block or executes Fx15 (70_reset_and_hazards.md R299). -/
def NoDelayWrite : List AgentStep → State → Prop
  | [], _ => True
  | a :: l, s =>
    a ≠ .reset ∧ (a = .cycle → s.halted = false → ∀ x : Reg, decode (fetchOp s) ≠ some (.ldDtVx x)) ∧
      NoDelayWrite l (agentStep a s)

/-! ### Tables of the spec -/

/-- The table of 10_state.md R25: `pc` after the cycle that executes `i` in state `s`, where `A = s.pc` is the value before the
cycle. -/
def pcAfter (i : Instr) (s : State) : Word :=
  match i with
  | .ret => if s.sp.val = 0 then s.pc + 2 else s.stack[s.sp.val - 1]'(by have := s.sp.isLt; omega)
  | .jp nnn => BitVec.ofNat 16 nnn.toNat
  | .call nnn => if s.sp.val = 16 then s.pc + 2 else BitVec.ofNat 16 nnn.toNat
  | .seImm x nn => if s.getV x = nn then s.pc + 4 else s.pc + 2
  | .sneImm x nn => if s.getV x ≠ nn then s.pc + 4 else s.pc + 2
  | .seReg x y => if s.getV x = s.getV y then s.pc + 4 else s.pc + 2
  | .sneReg x y => if s.getV x ≠ s.getV y then s.pc + 4 else s.pc + 2
  | .skp x => if h : (s.getV x).toNat < 16 then (if s.key[(s.getV x).toNat] then s.pc + 4 else s.pc + 2) else s.pc + 2
  | .sknp x => if h : (s.getV x).toNat < 16 then (if s.key[(s.getV x).toNat] then s.pc + 2 else s.pc + 4) else s.pc + 2
  | .jpOff nnn =>
    if s.config.bnnn then BitVec.ofNat 16 (nnn.toNat + (s.getV 0).toNat)
    else BitVec.ofNat 16 (nnn.toNat + (s.getV (Fin.ofNat 16 (nnn.toNat / 256))).toNat)
  | .drw _ _ _ => if s.config.displayWait = true ∧ displayReady s.readyDraws = false then s.pc else s.pc + 2
  | .ldVxK _ => if s.rel = none then s.pc else s.pc + 2
  | .cls => s.pc + 2
  | .ldImm _ _ => s.pc + 2
  | .addImm _ _ => s.pc + 2
  | .ldReg _ _ => s.pc + 2
  | .orReg _ _ => s.pc + 2
  | .andReg _ _ => s.pc + 2
  | .xorReg _ _ => s.pc + 2
  | .addReg _ _ => s.pc + 2
  | .sub _ _ => s.pc + 2
  | .shr _ _ => s.pc + 2
  | .subn _ _ => s.pc + 2
  | .shl _ _ => s.pc + 2
  | .ldI _ => s.pc + 2
  | .rnd _ _ => s.pc + 2
  | .ldVxDt _ => s.pc + 2
  | .ldDtVx _ => s.pc + 2
  | .ldStVx _ => s.pc + 2
  | .addI _ => s.pc + 2
  | .ldF _ => s.pc + 2
  | .ldB _ => s.pc + 2
  | .stRegs _ => s.pc + 2
  | .ldRegs _ => s.pc + 2

/-- The table of 60_exceptions.md R260: the fatal condition that the next cycle of a running core raises, from the opcode at
`pc`. -/
def fatalCause (s : State) : Option FaultCode :=
  if opcodeTable.all (fun r => !rowCovers r (fetchOp s)) then some .unknownInstruction
  else if fetchOp s = 0x00EE ∧ s.sp.val = 0 then some .stackUnderflow
  else if fetchOp s &&& 0xF000 = 0x2000 ∧ s.sp.val = 16 then some .stackOverflow
  else if (fetchOp s &&& 0xF0FF = 0xE09E ∨ fetchOp s &&& 0xF0FF = 0xE0A1) ∧
      15 < (s.getV (Fin.ofNat 16 ((fetchOp s).toNat / 256))).toNat then some .badKeyIndex
  else none

/-- The column "reads" of 10_state.md R22: whether `i` may use the value of `V[r]`. -/
def mayRead (c : Config) (i : Instr) (r : Reg) : Bool :=
  match i with
  | .cls => false
  | .ret => false
  | .jp _ => false
  | .call _ => false
  | .ldI _ => false
  | .seImm x _ => r == x
  | .sneImm x _ => r == x
  | .seReg x y => r == x || r == y
  | .sneReg x y => r == x || r == y
  | .ldImm _ _ => false
  | .addImm x _ => r == x
  | .ldReg _ y => r == y
  | .orReg x y => r == x || r == y
  | .andReg x y => r == x || r == y
  | .xorReg x y => r == x || r == y
  | .addReg x y => r == x || r == y
  | .sub x y => r == x || r == y
  | .subn x y => r == x || r == y
  | .shr x y => if c.shiftUseVy then r == y else r == x
  | .shl x y => if c.shiftUseVy then r == y else r == x
  | .jpOff nnn => if c.bnnn then r == 0 else r == Fin.ofNat 16 (nnn.toNat / 256)
  | .rnd _ _ => false
  | .drw x y _ => r == x || r == y
  | .skp x => r == x
  | .sknp x => r == x
  | .ldVxDt _ => false
  | .ldVxK _ => false
  | .ldDtVx x => r == x
  | .ldStVx x => r == x
  | .addI x => r == x
  | .ldF x => r == x
  | .ldB x => r == x
  | .stRegs x => decide (r ≤ x)
  | .ldRegs _ => false

/-- The column "writes" of 10_state.md R22: whether `i` may change `V[r]` in state `s`; VF by Dxyn "not when the draw is held by
DISPLAY_WAIT", Vx by Fx0A "only when a released key is delivered". -/
def mayWrite (s : State) (i : Instr) (r : Reg) : Bool :=
  match i with
  | .cls => false
  | .ret => false
  | .jp _ => false
  | .call _ => false
  | .ldI _ => false
  | .seImm _ _ => false
  | .sneImm _ _ => false
  | .seReg _ _ => false
  | .sneReg _ _ => false
  | .ldImm x _ => r == x
  | .addImm x _ => r == x
  | .ldReg x _ => r == x
  | .orReg x _ => r == x || (s.config.vfReset && r == VF)
  | .andReg x _ => r == x || (s.config.vfReset && r == VF)
  | .xorReg x _ => r == x || (s.config.vfReset && r == VF)
  | .addReg x _ => r == x || r == VF
  | .sub x _ => r == x || r == VF
  | .subn x _ => r == x || r == VF
  | .shr x _ => r == x || r == VF
  | .shl x _ => r == x || r == VF
  | .jpOff _ => false
  | .rnd x _ => r == x
  | .drw _ _ _ => r == VF && (!s.config.displayWait || displayReady s.readyDraws)
  | .skp _ => false
  | .sknp _ => false
  | .ldVxDt x => r == x
  | .ldVxK x => r == x && s.rel.isSome
  | .ldDtVx _ => false
  | .ldStVx _ => false
  | .addI _ => false
  | .ldF _ => false
  | .ldB _ => false
  | .stRegs _ => false
  | .ldRegs x => decide (r ≤ x)

/-- The two stores of 20_memory.md R73: Fx33 and Fx55. -/
def isStore : Instr → Bool
  | .ldB _ => true
  | .stRegs _ => true
  | .cls => false
  | .ret => false
  | .jp _ => false
  | .call _ => false
  | .seImm _ _ => false
  | .sneImm _ _ => false
  | .seReg _ _ => false
  | .ldImm _ _ => false
  | .addImm _ _ => false
  | .ldReg _ _ => false
  | .orReg _ _ => false
  | .andReg _ _ => false
  | .xorReg _ _ => false
  | .addReg _ _ => false
  | .sub _ _ => false
  | .shr _ _ => false
  | .subn _ _ => false
  | .shl _ _ => false
  | .sneReg _ _ => false
  | .ldI _ => false
  | .jpOff _ => false
  | .rnd _ _ => false
  | .drw _ _ _ => false
  | .skp _ => false
  | .sknp _ => false
  | .ldVxDt _ => false
  | .ldVxK _ => false
  | .ldDtVx _ => false
  | .ldStVx _ => false
  | .addI _ => false
  | .ldF _ => false
  | .ldRegs _ => false

/-! ### The raster, cell by cell -/

/-- Whether the sprite of Dxyn has a set pixel on cell (`r`, `c`): its origin wraps once, rows and columns off the screen are no
cells (43_display.md R193, R194), row `k` comes from `I + k`, the most significant bit is leftmost (R191). -/
def spriteCell (s : State) (x y : Reg) (n : Fin 16) (r : Fin 32) (c : Fin 64) : Bool :=
  let x0 := (s.getV x).toNat % 64
  let y0 := (s.getV y).toNat % 32
  decide (y0 ≤ r.val ∧ r.val < y0 + n.val ∧ x0 ≤ c.val ∧ c.val < x0 + 8) &&
    (s.readByte (s.I + BitVec.ofNat 16 (r.val - y0))).getLsbD (7 - (c.val - x0))

/-! ### States that a program and the host cannot tell apart -/

/-- `s` and `t` agree but for bits 15 to 12 of `I`, `pc` and the stack entries (10_state.md R23, R27). -/
def AgreeBelowBit12 (s t : State) : Prop :=
  t.I &&& 0x0FFF = s.I &&& 0x0FFF ∧ t.pc &&& 0x0FFF = s.pc &&& 0x0FFF ∧
  (∀ j : Fin 16, t.stack[j] &&& 0x0FFF = s.stack[j] &&& 0x0FFF) ∧
  { t with I := s.I, pc := s.pc, stack := s.stack } = s

end Sys2Proof.Machine
end

