-- ==== Sys2Proof/Certificates/Slice0/Obligations.lean ====
section
/-! DEFINITION. The statements for the provers. Each docstring says which rule of spec/ it formalises, or, where it rests on a
choice that the spec marks as its own or on a choice of the model, which one. -/

open Sys2Proof Sys2Proof.Machine

/-! ### Encoding -/

/-- The encoder loses no bit: every instruction, every operand (30_encoding.md R92, R100). -/
def Obligations.DecodeOfEncodeIsTheInstruction : Prop :=
  ∀ i : Instr, decode (encode i) = some i

/-- Each legal word has one meaning: the decoder loses no bit of a legal opcode. It is why the model's `fault_op` of a meaning,
`encode i`, is the opcode fetched (log 8). -/
def Obligations.EncodeOfDecodeIsTheWord : Prop :=
  ∀ (op : Word) (i : Instr), decode op = some i → encode i = op

/-- 30_encoding.md R100: 34 rows; an opcode is an instruction exactly when `op & mask = match` for its row; no two rows overlap;
an opcode that matches no row decodes to nothing. -/
def Obligations.DecoderFollowsTheOpcodeTable : Prop :=
  opcodeTable.length = 34 ∧
  (∀ (op : Word) (i : Instr), decode op = some i →
    opcodeRow i ∈ opcodeTable ∧ op &&& (opcodeRow i).1 = (opcodeRow i).2) ∧
  (∀ op : Word, (∀ r ∈ opcodeTable, rowCovers r op = false) ↔ decode op = none) ∧
  (∀ (op : Word) (r q : OpcodeRow), r ∈ opcodeTable → q ∈ opcodeTable → rowCovers r op = true → rowCovers q op = true →
    r = q)

/-- The exact list of illegal opcodes of 30_encoding.md R105, over the opcode as a number. For families 5 and 9 the list rests on
the spec's decision D15. -/
def Obligations.IllegalOpcodesAreExactlyThoseListed : Prop :=
  ∀ op : Word, decode op = none ↔
    (op.toNat / 4096 = 0 ∧ op.toNat ≠ 0x00E0 ∧ op.toNat ≠ 0x00EE) ∨
    (op.toNat / 4096 = 5 ∧ op.toNat % 16 ≠ 0) ∨
    (op.toNat / 4096 = 8 ∧ op.toNat % 16 ∈ [8, 9, 10, 11, 12, 13, 15]) ∨
    (op.toNat / 4096 = 9 ∧ op.toNat % 16 ≠ 0) ∨
    (op.toNat / 4096 = 14 ∧ op.toNat % 256 ∉ [0x9E, 0xA1]) ∨
    (op.toNat / 4096 = 15 ∧ op.toNat % 256 ∉ [0x07, 0x0A, 0x15, 0x18, 0x1E, 0x29, 0x33, 0x55, 0x65])

/-- Nine words written out in the examples of files 40 to 44, one of each format, and the word of T6 of 95_test_vectors.md, which is
no instruction by the spec's decision D15 (30_encoding.md R105, log 16). -/
def Obligations.WordsOfTheSpecDecodeToTheirInstructions : Prop :=
  decode 0x00E0 = some .cls ∧ decode 0x220A = some (.call 0x20A) ∧ decode 0x4311 = some (.sneImm 3 0x11) ∧
  decode 0x6A2F = some (.ldImm 10 0x2F) ∧ decode 0x812E = some (.shl 1 2) ∧ decode 0xB210 = some (.jpOff 0x210) ∧
  decode 0xD125 = some (.drw 1 2 5) ∧ decode 0xE4A1 = some (.sknp 4) ∧ decode 0xF265 = some (.ldRegs 2) ∧
  decode 0x5121 = none

/-- What the host hands the model as a table word is decoded and, placed where the next cycle fetches, is what that cycle
executes (the model's interface, log 9; 20_memory.md R70 for the byte order). -/
def Obligations.PlacedWordIsFetchedAndExecuted : Prop :=
  ∀ (w : Nat) (i : Instr) (s : State), Memory.wf s.config s.mem = true → decode (BitVec.ofNat 16 w) = some i →
    decodeTableWord 16 w = some i ∧
    step (s.withFetchWord 16 w) = exec i (s.withFetchWord 16 w).advance ∧
    (s.halted = false → OnlyChanges [.memory] s (s.withFetchWord 16 w)) ∧
    (∀ a : Word, memIndex a ≠ memIndex s.pc → memIndex a ≠ memIndex (s.pc + 1) →
      (s.withFetchWord 16 w).readByte a = s.readByte a)

/-! ### The cycle -/

/-- 30_encoding.md R90 and 50_host_interface.md R232: fetch big-endian from `pc` and `pc + 1`, advance `pc` by 2, decode, execute;
an opcode that matches no row raises UnknownInstruction after the advance; a halted core's cycle does nothing. -/
def Obligations.StepRunsTheDecodedInstruction : Prop :=
  ∀ s : State,
    (s.halted = true → step s = .next s) ∧
    (s.halted = false → ∀ i : Instr, decode (s.readByte s.pc ++ s.readByte (s.pc + 1)) = some i →
      step s = exec i { s with pc := s.pc + 2 }) ∧
    (s.halted = false → decode (s.readByte s.pc ++ s.readByte (s.pc + 1)) = none →
      step s = .next { s with
        pc := s.pc + 2, halted := true, faultCode := .unknownInstruction,
        faultOp := s.readByte s.pc ++ s.readByte (s.pc + 1) })

/-- 50_host_interface.md R234: every cycle of every state answers a next state (the model has no stop), and where the latch is
consistent the outcome is `Ok` or `Failed(c)` with `c` one of the four fatal conditions. That the outcome is read from the state
is the model's reading (log 7). -/
def Obligations.EveryCycleEndsOkOrWithAFatalCondition : Prop :=
  ∀ s : State, LatchConsistent s → ∃ t : State, step s = .next t ∧
    (cycleOutcome t = .ok ∨ cycleOutcome t = .failed .unknownInstruction ∨ cycleOutcome t = .failed .stackUnderflow ∨
      cycleOutcome t = .failed .stackOverflow ∨ cycleOutcome t = .failed .badKeyIndex)

/-- The table of causes 60_exceptions.md R260, the entry R263 and the precision R268, for every running core: the cycle raises the
condition of the table, if any, and then changes `pc` (by the fetch) and the latch and nothing else; if none, the latch is
untouched. Rests on the spec's decisions D2, D11, D12. -/
def Obligations.FatalConditionsArePreciseAndComplete : Prop :=
  ∀ s : State, s.halted = false → ∃ t : State, step s = .next t ∧
    match fatalCause s with
    | some c => t = { s with pc := s.pc + 2, halted := true, faultCode := c, faultOp := fetchOp s }
    | none => t.halted = false ∧ t.faultCode = s.faultCode ∧ t.faultOp = s.faultOp

/-- 50_host_interface.md R233 and 60_exceptions.md R263, R271 (decisions D11, D24): a halted core stays halted with the same latch
under every sequence of steps without a reset; its cycles change nothing, and only memory, timers and key latch can change. -/
def Obligations.HaltedCoreStaysHaltedUntilReset : Prop :=
  ∀ (l : List AgentStep) (s : State), s.halted = true → AgentStep.reset ∉ l →
    step (runAgents l s) = .next (runAgents l s) ∧
    OnlyChanges [.memory, .delay, .sound, .keys, .waitSlot] s (runAgents l s)

/-- The table of 10_state.md R25: `pc` after the cycle of every legal instruction, and after an illegal encoding. Its entries for a
full stack, a key index above 15, a halt and a held draw rest on the spec's decisions D2, D12, D11 and D10 (log 16); a fatal
condition is a next state (log 7), and the answer of `DisplayReady()` is the model's free value (log 5). -/
def Obligations.PcAfterEachInstruction : Prop :=
  ∀ s : State, s.halted = false → ∃ t : State, step s = .next t ∧
    (match decode (fetchOp s) with
     | some i => t.pc = pcAfter i s
     | none => t.pc = s.pc + 2 ∧ t.halted = true) ∧
    (decode (fetchOp s) = some .ret → s.sp.val = 0 → t.halted = true) ∧
    (∀ nnn : Addr, decode (fetchOp s) = some (.call nnn) → s.sp.val = 16 → t.halted = true) ∧
    (∀ x : Reg, decode (fetchOp s) = some (.skp x) ∨ decode (fetchOp s) = some (.sknp x) → 15 < (s.getV x).toNat →
      t.halted = true)

/-! ### Control transfer -/

/-- 40_flow.md R123 to R126: the four register skips add 2 to `pc` where their condition holds, and change nothing else. -/
def Obligations.SkipsMovePcByTwoWhenTaken : Prop :=
  ∀ (x y : Reg) (nn : Byte) (s : State),
    exec (.seImm x nn) s = .next { s with pc := if s.getV x = nn then s.pc + 2 else s.pc } ∧
    exec (.sneImm x nn) s = .next { s with pc := if s.getV x = nn then s.pc else s.pc + 2 } ∧
    exec (.seReg x y) s = .next { s with pc := if s.getV x = s.getV y then s.pc + 2 else s.pc } ∧
    exec (.sneReg x y) s = .next { s with pc := if s.getV x = s.getV y then s.pc else s.pc + 2 }

/-- 40_flow.md R121 and R127: JP sets `pc` to `nnn`; JP_OFF to `nnn + V0` under BNNN and else to `nnn + Vx`, `x` the top nibble of
`nnn`, as 16-bit values; nothing else changes. -/
def Obligations.JumpsSetPc : Prop :=
  ∀ (nnn : Addr) (s : State),
    exec (.jp nnn) s = .next { s with pc := BitVec.ofNat 16 nnn.toNat } ∧
    exec (.jpOff nnn) s = .next { s with
      pc := BitVec.ofNat 16 (nnn.toNat +
        (s.getV (if s.config.bnnn then 0 else Fin.ofNat 16 (nnn.toNat / 256))).toNat) }

/-- 40_flow.md R122: CALL with a free entry pushes the return address and jumps; with sixteen entries in use it raises
StackOverflow and changes the latch alone. The bound and the overflow are the spec's decision D2, the latch D11. -/
def Obligations.CallPushesTheReturnAddress : Prop :=
  ∀ (nnn : Addr) (s : State),
    if s.sp.val = 16 then
      exec (.call nnn) s = .next { s with
        halted := true, faultCode := .stackOverflow, faultOp := BitVec.ofNat 16 (0x2000 + nnn.toNat) }
    else ∃ t : State, exec (.call nnn) s = .next t ∧
      t.pc = BitVec.ofNat 16 nnn.toNat ∧ t.sp.val = s.sp.val + 1 ∧
      (∀ j : Fin 16, t.stack[j] = if j.val = s.sp.val then s.pc else s.stack[j]) ∧
      OnlyChanges [.pc, .stack] s t

/-- 40_flow.md R120: RET pops the most recent entry into `pc`, which stays in the store; with an empty stack it raises
StackUnderflow and changes the latch alone (the latch of R263 is the spec's decision D11). -/
def Obligations.ReturnPopsIntoPc : Prop :=
  ∀ s : State,
    if s.sp.val = 0 then
      exec .ret s = .next { s with halted := true, faultCode := .stackUnderflow, faultOp := 0x00EE }
    else ∃ t : State, exec .ret s = .next t ∧
      (∀ j : Fin 16, j.val + 1 = s.sp.val → t.pc = s.stack[j]) ∧ t.sp.val + 1 = s.sp.val ∧ t.stack = s.stack ∧
      OnlyChanges [.pc, .stack] s t

/-- The stack discipline (40_flow.md R120, 90_conflicts.md C7), of execute phases in a row without the fetch advances between them:
after N nested calls and k of the returns, `pc` and `sp` are as after the first N − k calls; where the stack was empty, an (N+1)th
return raises StackUnderflow. The bound of 16 is the spec's decision D2, the latch D11 (log 16). -/
def Obligations.ReturnsUndoNestedCalls : Prop :=
  ∀ (ts : List Addr) (s : State), s.sp.val + ts.length ≤ 16 →
    (∀ k : Nat, k ≤ ts.length →
      (runExec (ts.map .call ++ List.replicate k .ret) s).pc = (runExec ((ts.take (ts.length - k)).map .call) s).pc ∧
      (runExec (ts.map .call ++ List.replicate k .ret) s).sp.val + k = s.sp.val + ts.length ∧
      OnlyChanges [.pc, .stack] s (runExec (ts.map .call ++ List.replicate k .ret) s)) ∧
    (s.sp.val = 0 →
      exec .ret (runExec (ts.map .call ++ List.replicate ts.length .ret) s) =
        .next { runExec (ts.map .call ++ List.replicate ts.length .ret) s with
          halted := true, faultCode := .stackUnderflow, faultOp := 0x00EE })

/-- 50_host_interface.md R247: a program at a self-jump is finished: every further cycle leaves the whole state unchanged. -/
def Obligations.SelfJumpIsTheEndState : Prop :=
  ∀ (k : Nat) (s : State), AtSelfJump s →
    step s = .next s ∧ runAgents (List.replicate k .cycle) s = s

/-! ### Registers and ALU -/

/-- 41_alu.md R140, R141, R143: LD_IMM, ADD_IMM and LD_REG write `V[x]` and nothing else; the sum is modulo 256 and writes no
flag. -/
def Obligations.LoadsAndAddImmediateWriteOneRegister : Prop :=
  ∀ (x y : Reg) (nn : Byte) (s : State),
    (∃ t : State, exec (.ldImm x nn) s = .next t ∧ t.getV x = nn ∧ SameRegsBut x s t ∧ OnlyChanges [.regs] s t) ∧
    (∃ t : State, exec (.addImm x nn) s = .next t ∧ (t.getV x).toNat = ((s.getV x).toNat + nn.toNat) % 256 ∧
      SameRegsBut x s t ∧ OnlyChanges [.regs] s t) ∧
    (∃ t : State, exec (.ldReg x y) s = .next t ∧ t.getV x = s.getV y ∧ SameRegsBut x s t ∧ OnlyChanges [.regs] s t)

/-- 41_alu.md R144, R145, R146: the bitwise result in `V[x]`, then VF written 0 if VF_RESET and left alone if not. That the write of
VF is the later one, which shows at `x = 15`, is the spec's decision D14 (R142, log 16). -/
def Obligations.LogicResultsAndVfReset : Prop :=
  ∀ (x y r : Reg) (s : State),
    (∃ t : State, exec (.orReg x y) s = .next t ∧ OnlyChanges [.regs] s t ∧
      t.getV r = if s.config.vfReset = true ∧ r = VF then 0 else if r = x then s.getV x ||| s.getV y else s.getV r) ∧
    (∃ t : State, exec (.andReg x y) s = .next t ∧ OnlyChanges [.regs] s t ∧
      t.getV r = if s.config.vfReset = true ∧ r = VF then 0 else if r = x then s.getV x &&& s.getV y else s.getV r) ∧
    (∃ t : State, exec (.xorReg x y) s = .next t ∧ OnlyChanges [.regs] s t ∧
      t.getV r = if s.config.vfReset = true ∧ r = VF then 0 else if r = x then s.getV x ^^^ s.getV y else s.getV r)

/-- 41_alu.md R147, R148, R150: sum and differences modulo 256 in `V[x]`; VF 1 on a carry out, on no borrow, else 0. That the flag is
written last, which shows at `x = 15`, is the spec's decision D14 (R142, log 16). -/
def Obligations.AddAndSubtractResultsAndFlags : Prop :=
  ∀ (x y : Reg) (s : State),
    (∃ t : State, exec (.addReg x y) s = .next t ∧ OnlyChanges [.regs] s t ∧ ∀ r : Reg,
      (t.getV r).toNat =
        if r = VF then (if (s.getV x).toNat + (s.getV y).toNat > 255 then 1 else 0)
        else if r = x then ((s.getV x).toNat + (s.getV y).toNat) % 256 else (s.getV r).toNat) ∧
    (∃ t : State, exec (.sub x y) s = .next t ∧ OnlyChanges [.regs] s t ∧ ∀ r : Reg,
      (t.getV r).toNat =
        if r = VF then (if (s.getV x).toNat ≥ (s.getV y).toNat then 1 else 0)
        else if r = x then ((s.getV x).toNat + 256 - (s.getV y).toNat) % 256 else (s.getV r).toNat) ∧
    (∃ t : State, exec (.subn x y) s = .next t ∧ OnlyChanges [.regs] s t ∧ ∀ r : Reg,
      (t.getV r).toNat =
        if r = VF then (if (s.getV y).toNat ≥ (s.getV x).toNat then 1 else 0)
        else if r = x then ((s.getV y).toNat + 256 - (s.getV x).toNat) % 256 else (s.getV r).toNat)

/-- 41_alu.md R149, R151: the shifts of the quirk-selected source by one, the bit shifted out in VF. That the flag is written first,
so that with `x = 15` VF ends as the shifted value, is the spec's decision D14 (R142, log 16). -/
def Obligations.ShiftResultsAndFlags : Prop :=
  ∀ (x y : Reg) (s : State) (src : Nat),
    src = (if s.config.shiftUseVy then (s.getV y).toNat else (s.getV x).toNat) →
    (∃ t : State, exec (.shr x y) s = .next t ∧ OnlyChanges [.regs] s t ∧ ∀ r : Reg,
      (t.getV r).toNat = if r = x then src / 2 else if r = VF then src % 2 else (s.getV r).toNat) ∧
    (∃ t : State, exec (.shl x y) s = .next t ∧ OnlyChanges [.regs] s t ∧ ∀ r : Reg,
      (t.getV r).toNat = if r = x then (src * 2) % 256 else if r = VF then src / 128 else (s.getV r).toNat)

/-- 41_alu.md R152: RND writes the masked draw and consumes one draw; "the only thing a proof may assume of the result `r` is
`r & ~nn = 0`". Holds whatever the draw (the draw is the spec's decision D9 and the model's free value, log 4). -/
def Obligations.RandomByteIsMasked : Prop :=
  ∀ (x : Reg) (nn : Byte) (s : State), ∃ t : State, exec (.rnd x nn) s = .next t ∧
    t.getV x = Config.randomByte s.randDraws &&& nn ∧ t.getV x &&& ~~~nn = 0 ∧ SameRegsBut x s t ∧
    t.randDraws = s.randDraws + 1 ∧ OnlyChanges [.regs, .randDraws] s t ∧
    ∀ b : Byte, (randomWith b x nn s).getV x = b &&& nn ∧ SameRegsBut x s (randomWith b x nn s) ∧
      { randomWith b x nn s with V := t.V } = t

/-! ### Index register, loads and stores -/

/-- 42_index_memory.md R170, R171: LD_I and ADD_I write `I` and nothing else, VF included; the sum is modulo 65536. -/
def Obligations.IndexLoadAndAddWriteI : Prop :=
  ∀ (nnn : Addr) (x : Reg) (s : State),
    exec (.ldI nnn) s = .next { s with I := BitVec.ofNat 16 nnn.toNat } ∧
    exec (.addI x) s = .next { s with I := BitVec.ofNat 16 ((s.I.toNat + (s.getV x).toNat) % 65536) }

/-- 42_index_memory.md R172: LD_F writes the address of a glyph into `I` and nothing else. That the formula holds for `V[x] > 15`
too is the spec's decision D18. On a legal instance the address is not reduced; in the reset memory the five bytes there are the
glyph's rows for `V[x]` up to 15 (20_memory.md R65). -/
def Obligations.GlyphAddressIsFiveBytesPerDigit : Prop :=
  ∀ (x : Reg) (s : State), s.config.wf = true → ∃ t : State,
    exec (.ldF x) s = .next t ∧ OnlyChanges [.index] s t ∧ t.I.toNat = s.config.fontBase + 5 * (s.getV x).toNat ∧
    ∀ (d k : Nat) (h : 5 * d + k < 80), (s.getV x).toNat = d → k < 5 →
      (resetCore t).readByte (t.I + BitVec.ofNat 16 k) = s.config.fontData[5 * d + k]

/-- 42_index_memory.md R173: LD_B stores hundreds, tens and units at `I`, `I + 1`, `I + 2`, each address masked on its own, and
changes nothing else. -/
def Obligations.BcdDigitsAreStored : Prop :=
  ∀ (x : Reg) (s : State), Memory.wf s.config s.mem = true → ∃ t : State, exec (.ldB x) s = .next t ∧
    (t.readByte s.I).toNat = (s.getV x).toNat / 100 ∧
    (t.readByte (s.I + 1)).toNat = (s.getV x).toNat / 10 % 10 ∧
    (t.readByte (s.I + 2)).toNat = (s.getV x).toNat % 10 ∧
    (∀ a : Word, memIndex a ≠ memIndex s.I → memIndex a ≠ memIndex (s.I + 1) → memIndex a ≠ memIndex (s.I + 2) →
      t.readByte a = s.readByte a) ∧
    OnlyChanges [.memory] s t

/-- 42_index_memory.md R175: ST_REGS stores V0 to Vx at `I` onwards; every other byte reads as before; `I` moves by x + 1 exactly
under STORE_LOAD_INCREMENTS_I. -/
def Obligations.RegisterBlockIsStored : Prop :=
  ∀ (x : Reg) (s : State), Memory.wf s.config s.mem = true → ∃ t : State, exec (.stRegs x) s = .next t ∧
    (∀ i : Reg, i ≤ x → t.readByte (s.I + BitVec.ofNat 16 i.val) = s.getV i) ∧
    (∀ a : Word, (∀ i : Reg, i ≤ x → memIndex a ≠ memIndex (s.I + BitVec.ofNat 16 i.val)) →
      t.readByte a = s.readByte a) ∧
    t.I = (if s.config.storeLoadIncrementsI then s.I + BitVec.ofNat 16 (x.val + 1) else s.I) ∧
    OnlyChanges [.memory, .index] s t

/-- 42_index_memory.md R176: LD_REGS loads V0 to Vx from `I` onwards, keeps the registers above `x` and all of memory; `I` moves
by x + 1 exactly under STORE_LOAD_INCREMENTS_I. -/
def Obligations.RegisterBlockIsLoaded : Prop :=
  ∀ (x : Reg) (s : State), ∃ t : State, exec (.ldRegs x) s = .next t ∧
    (∀ r : Reg, t.getV r = if r ≤ x then s.readByte (s.I + BitVec.ofNat 16 r.val) else s.getV r) ∧
    t.I = (if s.config.storeLoadIncrementsI then s.I + BitVec.ofNat 16 (x.val + 1) else s.I) ∧
    OnlyChanges [.regs, .index] s t

/-- The round trip 42_index_memory.md R177 (an inference the spec marks as derived): Fx55 with index value `a`, then, after
anything that leaves those bytes alone, Fx65 with the same `x` and `I = a` restores V0 to Vx. -/
def Obligations.StoreThenLoadRestoresRegisters : Prop :=
  ∀ (x : Reg) (s t u : State), Memory.wf s.config s.mem = true → exec (.stRegs x) s = .next t → u.I = s.I →
    (∀ i : Reg, i ≤ x → u.readByte (s.I + BitVec.ofNat 16 i.val) = t.readByte (s.I + BitVec.ofNat 16 i.val)) →
    ∃ w : State, exec (.ldRegs x) u = .next w ∧ ∀ i : Reg, i ≤ x → w.getV i = s.getV i

/-- 20_memory.md R81: a byte stored by Fx55 over the next opcode is what the next fetch reads (an inference the spec marks as
derived). -/
def Obligations.StoreIsSeenByTheNextFetch : Prop :=
  ∀ (x i : Reg) (s t : State), Memory.wf s.config s.mem = true → exec (.stRegs x) s = .next t → i ≤ x →
    (memIndex s.pc = memIndex (s.I + BitVec.ofNat 16 i.val) → hiByte (fetchOp t) = s.getV i) ∧
    (memIndex (s.pc + 1) = memIndex (s.I + BitVec.ofNat 16 i.val) → loByte (fetchOp t) = s.getV i)

/-- 20_memory.md R73, the column of writes: an instruction other than Fx33 and Fx55 changes no byte of memory. -/
def Obligations.OnlyTwoInstructionsWriteMemory : Prop :=
  ∀ (i : Instr) (s t : State), isStore i = false → exec i s = .next t → ∀ a : Word, t.readByte a = s.readByte a

/-! ### Display -/

/-- 43_display.md R190: CLS makes all 2048 cells false and changes nothing else. -/
def Obligations.ClearScreenClearsEveryCell : Prop :=
  ∀ s : State, ∃ t : State, exec .cls s = .next t ∧ (∀ (r : Fin 32) (c : Fin 64), t.pixel r c = false) ∧
    OnlyChanges [.screen] s t

/-- 43_display.md R191, R193, R195: the drawing loop is, cell by cell, the exclusive or with the clipped sprite, and VF is 1 exactly
if a set sprite pixel lands on a set cell. A draw held by DISPLAY_WAIT only rewinds `pc` (R192, the spec's decision D10; the
consumed draw is the model's counter, log 5). For every answer `ready`, and so for the one that exec takes. -/
def Obligations.DrawIsCellwiseExclusiveOr : Prop :=
  ∀ (x y : Reg) (n : Fin 16) (s : State),
    exec (.drw x y n) s = .next (drawWith (displayReady s.readyDraws) x y n s) ∧
    ∀ ready : Bool,
      if s.config.displayWait = true ∧ ready = false then
        drawWith ready x y n s = { s with pc := s.pc - 2, readyDraws := s.readyDraws + 1 }
      else
        (∀ (r : Fin 32) (c : Fin 64), (drawWith ready x y n s).pixel r c = (s.pixel r c ^^ spriteCell s x y n r c)) ∧
        ((drawWith ready x y n s).getV VF =
          if ∃ (r : Fin 32) (c : Fin 64), spriteCell s x y n r c = true ∧ s.pixel r c = true then 1 else 0) ∧
        SameRegsBut VF s (drawWith ready x y n s) ∧
        (drawWith ready x y n s).readyDraws = (if s.config.displayWait then s.readyDraws + 1 else s.readyDraws) ∧
        OnlyChanges [.regs, .screen, .readyDraws] s (drawWith ready x y n s)

/-- 43_display.md R197 (a), an inference the spec marks as derived: after CLS a performed draw leaves the sprite alone on the screen
and VF 0. -/
def Obligations.ClearThenDrawShowsTheSpriteAlone : Prop :=
  ∀ (x y : Reg) (n : Fin 16) (ready : Bool) (s t : State), exec .cls s = .next t →
    (s.config.displayWait = true → ready = true) →
    (∀ (r : Fin 32) (c : Fin 64), (drawWith ready x y n t).pixel r c = spriteCell s x y n r c) ∧
    (drawWith ready x y n t).getV VF = 0

/-- 43_display.md R197 (b), an inference the spec marks as derived (90_conflicts.md C1): a second draw of the same bytes at the same
origin, nothing else drawn between, restores every cell. Its VF is 1 exactly if a set pixel of the sprite fell on a cell that was
clear at first (R195); from the all-unset screen of R197's sentence that is: exactly if the sprite has a set pixel on the screen
(log 14). -/
def Obligations.DrawingTwiceRestoresTheScreen : Prop :=
  ∀ (x y x' y' : Reg) (n : Fin 16) (s u : State),
    u.fb = (drawWith true x y n s).fb →
    (u.getV x').toNat % 64 = (s.getV x).toNat % 64 → (u.getV y').toNat % 32 = (s.getV y).toNat % 32 →
    (∀ k : Nat, k < n.val → u.readByte (u.I + BitVec.ofNat 16 k) = s.readByte (s.I + BitVec.ofNat 16 k)) →
    (drawWith true x' y' n u).fb = s.fb ∧
    ((drawWith true x' y' n u).getV VF =
      if ∃ (r : Fin 32) (c : Fin 64), spriteCell s x y n r c = true ∧ s.pixel r c = false then 1 else 0) ∧
    ((∀ (r : Fin 32) (c : Fin 64), s.pixel r c = false) →
      ((drawWith true x' y' n u).getV VF =
        if ∃ (r : Fin 32) (c : Fin 64), spriteCell s x y n r c = true then 1 else 0))

/-- 43_display.md R192 and 70_reset_and_hazards.md R296: a draw under DISPLAY_WAIT is retried in every cycle, each retry changing
nothing (but the model's counter of consumed answers, log 5), for as long as the environment answers false; after some number of
held cycles the next cycle performs the draw, by the fairness of 50_host_interface.md R248 (a) (the spec's decision D10). -/
def Obligations.HeldDrawIsRetriedUntilReady : Prop :=
  ∀ (x y : Reg) (n : Fin 16) (s : State), s.halted = false → s.config.displayWait = true →
    decode (fetchOp s) = some (.drw x y n) →
    (∀ k : Nat, (∃ j : Nat, j < k ∧ displayReady (s.readyDraws + j) = true) ∨
      runAgents (List.replicate k .cycle) s = { s with readyDraws := s.readyDraws + k }) ∧
    ∃ k : Nat, runAgents (List.replicate k .cycle) s = { s with readyDraws := s.readyDraws + k } ∧
      runAgents (List.replicate (k + 1) .cycle) s =
        drawSprite x y n { s with pc := s.pc + 2, readyDraws := s.readyDraws + k + 1 }

/-! ### Keypad and timers -/

/-- 44_keypad_timers.md R210, R211, R216: SKP and SKNP skip on the state of key `V[x]` and change nothing else; above 15 they raise
BadKeyIndex and change the latch alone (the spec's decisions D11, D12). -/
def Obligations.KeySkipsTestTheKeyState : Prop :=
  ∀ (x : Reg) (s : State),
    if h : (s.getV x).toNat < 16 then
      exec (.skp x) s = .next { s with pc := if s.key[(s.getV x).toNat] = true then s.pc + 2 else s.pc } ∧
      exec (.sknp x) s = .next { s with pc := if s.key[(s.getV x).toNat] = true then s.pc else s.pc + 2 }
    else
      exec (.skp x) s = .next { s with
        halted := true, faultCode := .badKeyIndex, faultOp := BitVec.ofNat 16 (0xE09E + 256 * x.val) } ∧
      exec (.sknp x) s = .next { s with
        halted := true, faultCode := .badKeyIndex, faultOp := BitVec.ofNat 16 (0xE0A1 + 256 * x.val) }

/-- 44_keypad_timers.md R212: LD_VX_K delivers the recorded release into `V[x]` and clears latch and slot; with none recorded it
sets the latch and rewinds. -/
def Obligations.KeyWaitDeliversOrRetries : Prop :=
  ∀ (x : Reg) (s : State),
    match s.rel with
    | some k => ∃ t : State, exec (.ldVxK x) s = .next t ∧ (t.getV x).toNat = k.val ∧ SameRegsBut x s t ∧
        t.wait = false ∧ t.rel = none ∧ OnlyChanges [.regs, .waitSlot] s t
    | none => exec (.ldVxK x) s = .next { s with wait := true, pc := s.pc - 2 }

/-- 44_keypad_timers.md R213, R214, R215: LD_VX_DT, LD_DT_VX and LD_ST_VX copy between `V[x]` and a timer and change nothing
else. -/
def Obligations.TimerInstructionsCopy : Prop :=
  ∀ (x : Reg) (s : State),
    (∃ t : State, exec (.ldVxDt x) s = .next t ∧ t.getV x = s.DT ∧ SameRegsBut x s t ∧ OnlyChanges [.regs] s t) ∧
    (∃ t : State, exec (.ldDtVx x) s = .next t ∧ t.DT = s.getV x ∧ OnlyChanges [.delay] s t) ∧
    (∃ t : State, exec (.ldStVx x) s = .next t ∧ t.ST = s.getV x ∧ OnlyChanges [.sound] s t ∧
      soundOn t = decide (s.getV x ≠ 0))

/-- 50_host_interface.md R236: a tick decrements both timers, floored at 0, and changes nothing else. -/
def Obligations.TickDecrementsBothTimers : Prop :=
  ∀ s : State, (decreaseTimers s).DT.toNat = s.DT.toNat - 1 ∧ (decreaseTimers s).ST.toNat = s.ST.toNat - 1 ∧
    OnlyChanges [.delay, .sound] s (decreaseTimers s)

/-- 70_reset_and_hazards.md R299, an inference the spec marks as derived: across any steps without a reset and without an Fx15 the
delay timer falls by exactly the number of ticks, floored at 0. -/
def Obligations.DelayTimerCountsTheTicks : Prop :=
  ∀ (l : List AgentStep) (s : State), NoDelayWrite l s →
    (runAgents l s).DT.toNat = s.DT.toNat - l.count .tick

/-- 50_host_interface.md R237: a press sets the key bit and nothing else (the spec's decision D13, log 16). -/
def Obligations.PressSetsTheKeyBit : Prop :=
  ∀ (k : Key) (s : State), (∀ j : Key, (pressKey k s).key[j] = if j = k then true else s.key[j]) ∧
    OnlyChanges [.keys] s (pressKey k s)

/-- 50_host_interface.md R238 (the exact condition is the spec's decision D13): a release clears the key bit and is recorded
exactly while a wait is pending. -/
def Obligations.ReleaseIsRecordedWhileWaiting : Prop :=
  ∀ (k : Key) (s : State), (∀ j : Key, (releaseKey k s).key[j] = if j = k then false else s.key[j]) ∧
    (releaseKey k s).rel = (if s.wait then some k else s.rel) ∧ (releaseKey k s).wait = s.wait ∧
    OnlyChanges [.keys, .waitSlot] s (releaseKey k s)

/-! ### Loader and reset -/

/-- 50_host_interface.md R239 and 20_memory.md R68: a program of at most 3584 bytes is copied to 0x200 onwards; every other byte and
everything else stays. -/
def Obligations.LoaderCopiesTheProgram : Prop :=
  ∀ (bytes : List Byte) (s : State), Memory.wf s.config s.mem = true → bytes.length ≤ 3584 →
    (loadProgram bytes s).2 = .ok ∧
    (∀ (i : Nat) (h : i < bytes.length), (loadProgram bytes s).1.readByte (BitVec.ofNat 16 (0x200 + i)) = bytes[i]) ∧
    (∀ a : Word, memIndex a < 0x200 ∨ 0x200 + bytes.length ≤ memIndex a →
      (loadProgram bytes s).1.readByte a = s.readByte a) ∧
    OnlyChanges [.memory] s (loadProgram bytes s).1

/-- 50_host_interface.md R240 (the whole refusal is the spec's decision D17): more than 3584 bytes change nothing at all and answer
ProgramTooLarge. -/
def Obligations.OversizedProgramChangesNothing : Prop :=
  ∀ (bytes : List Byte) (s : State), 3584 < bytes.length → loadProgram bytes s = (s, .programTooLarge)

/-- The table of 10_state.md R46 and 70_reset_and_hazards.md R290, R291, for every instance, from any state (registers, pc, stack,
timers, keys, screen and latch: the spec's decision D5; only the memory image is the source's). The reset operation keeps the
model's counters of consumed draws (log 6). -/
def Obligations.ResetGivesTheTabledValues : Prop :=
  ∀ (s : State), s.config.wf = true →
    (∀ x : Reg, (resetCore s).getV x = 0) ∧ (resetCore s).I = 0 ∧ (resetCore s).pc = 0x0200 ∧ (resetCore s).sp.val = 0 ∧
    (∀ j : Fin 16, (resetCore s).stack[j] = 0) ∧ (resetCore s).DT = 0 ∧ (resetCore s).ST = 0 ∧
    (∀ k : Key, (resetCore s).key[k] = false) ∧ (resetCore s).wait = false ∧ (resetCore s).rel = none ∧
    (∀ (r : Fin 32) (c : Fin 64), (resetCore s).pixel r c = false) ∧ (resetCore s).halted = false ∧
    (resetCore s).faultCode.toBits = 0 ∧ (resetCore s).faultOp = 0 ∧ (resetCore s).config = s.config ∧
    (∀ i : Fin 80, (resetCore s).readByte (BitVec.ofNat 16 (s.config.fontBase + i.val)) = s.config.fontData[i]) ∧
    (∀ a : Word, memIndex a < s.config.fontBase ∨ s.config.fontBase + 80 ≤ memIndex a → (resetCore s).readByte a = 0) ∧
    resetCore s = { State.resetWith s.config with randDraws := s.randDraws, readyDraws := s.readyDraws }

/-- 70_reset_and_hazards.md R293: with no program loaded the first cycle after reset fetches 0x0000 and halts with
UnknownInstruction (reset values: the spec's decision D5; latch: D11). -/
def Obligations.BootWithoutProgramHalts : Prop :=
  ∀ c : Config, c.wf = true →
    step (State.resetWith c) = .next { State.resetWith c with
      pc := 0x0202, halted := true, faultCode := .unknownInstruction, faultOp := 0x0000 }

/-- 70_reset_and_hazards.md R292, R293: after reset and load the first cycle fetches the first two bytes of the program, the first
the more significant (initial `pc`: the spec's decision D5). -/
def Obligations.BootFetchesTheFirstOpcode : Prop :=
  ∀ (c : Config) (hi lo : Byte) (rest : List Byte), c.wf = true → (hi :: lo :: rest).length ≤ 3584 →
    fetchOp (agentStep (.load (hi :: lo :: rest)) (State.resetWith c)) = hi ++ lo

/-! ### Rules of the whole machine -/

/-- The reset state of every legal instance, `State.reset` among them, meets the invariant. -/
def Obligations.ResetStateMeetsTheInvariant : Prop :=
  Inv State.reset ∧ ∀ c : Config, c.wf = true → Inv (State.resetWith c)

/-- Every cycle keeps the invariant: canonical memory, 10_state.md R42 and R44. -/
def Obligations.EveryStepKeepsTheInvariant : Prop :=
  ∀ s t : State, Inv s → step s = .next t → Inv t

/-- Every step of every agent keeps the invariant, so every reachable state has it (10_state.md R42: "In every state reachable from
reset"). -/
def Obligations.EveryReachableStateMeetsTheInvariant : Prop :=
  (∀ (a : AgentStep) (s : State), Inv s → Inv (agentStep a s)) ∧ ∀ s : State, Reachable s → Inv s

/-- 00_scope.md R8 and 10_state.md R32: no instruction and no host operation changes the parameters of the instance. -/
def Obligations.ConfigurationNeverChanges : Prop :=
  (∀ (i : Instr) (s : State), ∃ t : State, exec i s = .next t ∧ t.config = s.config) ∧
  ∀ (l : List AgentStep) (s : State), (runAgents l s).config = s.config

/-- The table of 10_state.md R22, reads and writes: registers that the table does not list as read cannot influence an
instruction, and registers that it does not list as written keep their value. The case of a held draw rests on the spec's decision
D10 (log 16) and is written with the model's free value (log 5). -/
def Obligations.RegisterReadsAndWritesAreThoseTabled : Prop :=
  ∀ (i : Instr) (s : State) (w : Vector Byte 16),
    (∀ r : Reg, mayRead s.config i r = true → w[r] = s.V[r]) →
    ∃ t t' : State, exec i s = .next t ∧ exec i { s with V := w } = .next t' ∧ { t' with V := t.V } = t ∧
      ∀ r : Reg, (mayWrite s i r = true ∧ t'.getV r = t.getV r) ∨ (t'.getV r = w[r] ∧ t.getV r = s.getV r)

/-- 10_state.md R23 and R27 (inferences the spec marks as derived): bits 15 to 12 of `I`, `pc` and the stack entries never influence
anything else, whatever the agents do. -/
def Obligations.HighAddressBitsAreNeverObserved : Prop :=
  ∀ (l : List AgentStep) (s t : State), AgreeBelowBit12 s t → AgreeBelowBit12 (runAgents l s) (runAgents l t)

/-- 10_state.md R31: "No instruction reads it": a cycle with another sound timer ends in the same state but for the sound timer. -/
def Obligations.SoundTimerIsNeverRead : Prop :=
  ∀ (s : State) (v : Byte), ∃ t t' : State,
    step s = .next t ∧ step { s with ST := v } = .next t' ∧ { t' with ST := t.ST } = t

/-- Two canonical memories that read alike everywhere are one list (the model's representation, log 12). -/
def Obligations.CanonicalMemoriesThatReadAlikeAreEqual : Prop :=
  ∀ (c : Config) (m m' : Memory), Memory.wf c m = true → Memory.wf c m' = true →
    (∀ a : Nat, a < memSize → Memory.lookup c m a = Memory.lookup c m' a) → m = m'

/-! ### Infinite runs and the environment -/

/-- 50_host_interface.md R248 (a), the spec's decision D10: the answers of `DisplayReady()` are fair; every choice of the free value
gives fair answers, and every fair sequence of answers is given by some choice, so that nothing but fairness is assumed
(log 5). -/
def Obligations.DisplayAnswersAreExactlyTheFairOnes : Prop :=
  FairAnswers displayReady ∧ (∀ hold : Nat → Nat, FairAnswers (answerAt hold)) ∧
  ∀ f : Nat → Bool, FairAnswers f → ∃ hold : Nat → Nat, ∀ n : Nat, answerAt hold n = f n

/-- 50_host_interface.md R245: the states of an infinite run are those of its finite beginnings, every finite run begins an infinite
one, and from the reset state of a legal instance every state of an infinite run is reachable and so meets the invariant. That any
order is legal is the spec's decision D22 (log 10). -/
def Obligations.InfiniteRunsAreTheirFiniteBeginnings : Prop :=
  (∀ (f : Nat → AgentStep) (s : State) (n : Nat), runAt f s n = runAgents ((List.range n).map f) s) ∧
  (∀ (l : List AgentStep) (s : State), ∃ f : Nat → AgentStep, runAt f s l.length = runAgents l s) ∧
  ∀ (c : Config) (f : Nat → AgentStep) (n : Nat), c.wf = true →
    Reachable (runAt f (State.resetWith c) n) ∧ Inv (runAt f (State.resetWith c) n)

/-- 50_host_interface.md R248 (a), 43_display.md R192 (the spec's decision D10): in every infinite run without a reset or a load in
which the core gets cycles for ever, whatever ticks and key events fall between them, a draw under DISPLAY_WAIT is performed: up to
some cycle nothing that a program or the screen shows has changed but the timers and the key latch, and that cycle draws. -/
def Obligations.HeldDrawIsPerformedInEveryFairRun : Prop :=
  ∀ (x y : Reg) (n : Fin 16) (s : State) (f : Nat → AgentStep), s.halted = false → s.config.displayWait = true →
    decode (fetchOp s) = some (.drw x y n) → NoResetNoLoad f → CyclesForever f →
    ∃ k : Nat, f k = .cycle ∧ OnlyChanges [.delay, .sound, .keys, .waitSlot, .readyDraws] s (runAt f s k) ∧
      runAt f s (k + 1) = drawSprite x y n { runAt f s k with
        pc := s.pc + 2, readyDraws := (runAt f s k).readyDraws + 1 }
end

