-- ==== Sys2Proof/Laws/Agents.lean ====
section
/-! SUPPORT. How runs unfold, step by step, and how a sequence of display answers does. -/

namespace Sys2Proof.Machine

@[simp] theorem runAgents_nil (s : State) : runAgents [] s = s := rfl

@[simp] theorem runAgents_cons (a : AgentStep) (l : List AgentStep) (s : State) :
    runAgents (a :: l) s = runAgents l (agentStep a s) := rfl

/-- The steps of `l`, then those of `m`. -/
theorem runAgents_append (l m : List AgentStep) (s : State) :
    runAgents (l ++ m) s = runAgents m (runAgents l s) := List.foldl_append

@[simp] theorem runAt_zero (f : Nat → AgentStep) (s : State) : runAt f s 0 = s := rfl

@[simp] theorem runAt_succ (f : Nat → AgentStep) (s : State) (n : Nat) :
    runAt f s (n + 1) = agentStep (f n) (runAt f s n) := rfl

/-- After a true answer the next hold begins. -/
theorem answerPos_succ_of_true (hold : Nat → Nat) (n : Nat) (h : answerAt hold n = true) :
    answerPos hold (n + 1) = ((answerPos hold n).1 + 1, 0) := by
  simp only [answerPos]
  rw [if_pos (by simpa [answerAt] using h)]

/-- After a false answer the hold goes on. -/
theorem answerPos_succ_of_false (hold : Nat → Nat) (n : Nat) (h : answerAt hold n = false) :
    answerPos hold (n + 1) = ((answerPos hold n).1, (answerPos hold n).2 + 1) := by
  simp only [answerPos]
  rw [if_neg (by simpa [answerAt] using h)]

/-- A draw has never been held longer than its hold. -/
theorem answerPos_le (hold : Nat → Nat) (n : Nat) : (answerPos hold n).2 ≤ hold (answerPos hold n).1 := by
  induction n with
  | zero => exact Nat.zero_le _
  | succ n ih =>
    simp only [answerPos]
    split
    · exact Nat.zero_le _
    · next h => exact Nat.lt_of_le_of_ne ih h

end Sys2Proof.Machine
end

