-- ==== Sys2Proof/Laws/State.lean ====
section
/-! SUPPORT. One lemma for each field of State under each update of Machine/Ops.lean, true by unfolding, so that no later proof
unfolds a record update. -/

namespace Sys2Proof.Machine

variable (s : State)

/-! ### `setV` -/

@[simp] theorem State.setV_V (x : Reg) (b : Byte) : (s.setV x b).V = s.V.set x b := rfl
@[simp] theorem State.setV_I (x : Reg) (b : Byte) : (s.setV x b).I = s.I := rfl
@[simp] theorem State.setV_pc (x : Reg) (b : Byte) : (s.setV x b).pc = s.pc := rfl
@[simp] theorem State.setV_sp (x : Reg) (b : Byte) : (s.setV x b).sp = s.sp := rfl
@[simp] theorem State.setV_stack (x : Reg) (b : Byte) : (s.setV x b).stack = s.stack := rfl
@[simp] theorem State.setV_mem (x : Reg) (b : Byte) : (s.setV x b).mem = s.mem := rfl
@[simp] theorem State.setV_DT (x : Reg) (b : Byte) : (s.setV x b).DT = s.DT := rfl
@[simp] theorem State.setV_ST (x : Reg) (b : Byte) : (s.setV x b).ST = s.ST := rfl
@[simp] theorem State.setV_key (x : Reg) (b : Byte) : (s.setV x b).key = s.key := rfl
@[simp] theorem State.setV_wait (x : Reg) (b : Byte) : (s.setV x b).wait = s.wait := rfl
@[simp] theorem State.setV_rel (x : Reg) (b : Byte) : (s.setV x b).rel = s.rel := rfl
@[simp] theorem State.setV_fb (x : Reg) (b : Byte) : (s.setV x b).fb = s.fb := rfl
@[simp] theorem State.setV_halted (x : Reg) (b : Byte) : (s.setV x b).halted = s.halted := rfl
@[simp] theorem State.setV_faultCode (x : Reg) (b : Byte) : (s.setV x b).faultCode = s.faultCode := rfl
@[simp] theorem State.setV_faultOp (x : Reg) (b : Byte) : (s.setV x b).faultOp = s.faultOp := rfl
@[simp] theorem State.setV_config (x : Reg) (b : Byte) : (s.setV x b).config = s.config := rfl
@[simp] theorem State.setV_randDraws (x : Reg) (b : Byte) : (s.setV x b).randDraws = s.randDraws := rfl
@[simp] theorem State.setV_readyDraws (x : Reg) (b : Byte) : (s.setV x b).readyDraws = s.readyDraws := rfl

/-! ### `setI` -/

@[simp] theorem State.setI_V (w : Word) : (s.setI w).V = s.V := rfl
@[simp] theorem State.setI_I (w : Word) : (s.setI w).I = w := rfl
@[simp] theorem State.setI_pc (w : Word) : (s.setI w).pc = s.pc := rfl
@[simp] theorem State.setI_sp (w : Word) : (s.setI w).sp = s.sp := rfl
@[simp] theorem State.setI_stack (w : Word) : (s.setI w).stack = s.stack := rfl
@[simp] theorem State.setI_mem (w : Word) : (s.setI w).mem = s.mem := rfl
@[simp] theorem State.setI_DT (w : Word) : (s.setI w).DT = s.DT := rfl
@[simp] theorem State.setI_ST (w : Word) : (s.setI w).ST = s.ST := rfl
@[simp] theorem State.setI_key (w : Word) : (s.setI w).key = s.key := rfl
@[simp] theorem State.setI_wait (w : Word) : (s.setI w).wait = s.wait := rfl
@[simp] theorem State.setI_rel (w : Word) : (s.setI w).rel = s.rel := rfl
@[simp] theorem State.setI_fb (w : Word) : (s.setI w).fb = s.fb := rfl
@[simp] theorem State.setI_halted (w : Word) : (s.setI w).halted = s.halted := rfl
@[simp] theorem State.setI_faultCode (w : Word) : (s.setI w).faultCode = s.faultCode := rfl
@[simp] theorem State.setI_faultOp (w : Word) : (s.setI w).faultOp = s.faultOp := rfl
@[simp] theorem State.setI_config (w : Word) : (s.setI w).config = s.config := rfl
@[simp] theorem State.setI_randDraws (w : Word) : (s.setI w).randDraws = s.randDraws := rfl
@[simp] theorem State.setI_readyDraws (w : Word) : (s.setI w).readyDraws = s.readyDraws := rfl

/-! ### `setDT` -/

@[simp] theorem State.setDT_V (b : Byte) : (s.setDT b).V = s.V := rfl
@[simp] theorem State.setDT_I (b : Byte) : (s.setDT b).I = s.I := rfl
@[simp] theorem State.setDT_pc (b : Byte) : (s.setDT b).pc = s.pc := rfl
@[simp] theorem State.setDT_sp (b : Byte) : (s.setDT b).sp = s.sp := rfl
@[simp] theorem State.setDT_stack (b : Byte) : (s.setDT b).stack = s.stack := rfl
@[simp] theorem State.setDT_mem (b : Byte) : (s.setDT b).mem = s.mem := rfl
@[simp] theorem State.setDT_DT (b : Byte) : (s.setDT b).DT = b := rfl
@[simp] theorem State.setDT_ST (b : Byte) : (s.setDT b).ST = s.ST := rfl
@[simp] theorem State.setDT_key (b : Byte) : (s.setDT b).key = s.key := rfl
@[simp] theorem State.setDT_wait (b : Byte) : (s.setDT b).wait = s.wait := rfl
@[simp] theorem State.setDT_rel (b : Byte) : (s.setDT b).rel = s.rel := rfl
@[simp] theorem State.setDT_fb (b : Byte) : (s.setDT b).fb = s.fb := rfl
@[simp] theorem State.setDT_halted (b : Byte) : (s.setDT b).halted = s.halted := rfl
@[simp] theorem State.setDT_faultCode (b : Byte) : (s.setDT b).faultCode = s.faultCode := rfl
@[simp] theorem State.setDT_faultOp (b : Byte) : (s.setDT b).faultOp = s.faultOp := rfl
@[simp] theorem State.setDT_config (b : Byte) : (s.setDT b).config = s.config := rfl
@[simp] theorem State.setDT_randDraws (b : Byte) : (s.setDT b).randDraws = s.randDraws := rfl
@[simp] theorem State.setDT_readyDraws (b : Byte) : (s.setDT b).readyDraws = s.readyDraws := rfl

/-! ### `setST` -/

@[simp] theorem State.setST_V (b : Byte) : (s.setST b).V = s.V := rfl
@[simp] theorem State.setST_I (b : Byte) : (s.setST b).I = s.I := rfl
@[simp] theorem State.setST_pc (b : Byte) : (s.setST b).pc = s.pc := rfl
@[simp] theorem State.setST_sp (b : Byte) : (s.setST b).sp = s.sp := rfl
@[simp] theorem State.setST_stack (b : Byte) : (s.setST b).stack = s.stack := rfl
@[simp] theorem State.setST_mem (b : Byte) : (s.setST b).mem = s.mem := rfl
@[simp] theorem State.setST_DT (b : Byte) : (s.setST b).DT = s.DT := rfl
@[simp] theorem State.setST_ST (b : Byte) : (s.setST b).ST = b := rfl
@[simp] theorem State.setST_key (b : Byte) : (s.setST b).key = s.key := rfl
@[simp] theorem State.setST_wait (b : Byte) : (s.setST b).wait = s.wait := rfl
@[simp] theorem State.setST_rel (b : Byte) : (s.setST b).rel = s.rel := rfl
@[simp] theorem State.setST_fb (b : Byte) : (s.setST b).fb = s.fb := rfl
@[simp] theorem State.setST_halted (b : Byte) : (s.setST b).halted = s.halted := rfl
@[simp] theorem State.setST_faultCode (b : Byte) : (s.setST b).faultCode = s.faultCode := rfl
@[simp] theorem State.setST_faultOp (b : Byte) : (s.setST b).faultOp = s.faultOp := rfl
@[simp] theorem State.setST_config (b : Byte) : (s.setST b).config = s.config := rfl
@[simp] theorem State.setST_randDraws (b : Byte) : (s.setST b).randDraws = s.randDraws := rfl
@[simp] theorem State.setST_readyDraws (b : Byte) : (s.setST b).readyDraws = s.readyDraws := rfl

/-! ### `setPc` -/

@[simp] theorem State.setPc_V (w : Word) : (s.setPc w).V = s.V := rfl
@[simp] theorem State.setPc_I (w : Word) : (s.setPc w).I = s.I := rfl
@[simp] theorem State.setPc_pc (w : Word) : (s.setPc w).pc = w := rfl
@[simp] theorem State.setPc_sp (w : Word) : (s.setPc w).sp = s.sp := rfl
@[simp] theorem State.setPc_stack (w : Word) : (s.setPc w).stack = s.stack := rfl
@[simp] theorem State.setPc_mem (w : Word) : (s.setPc w).mem = s.mem := rfl
@[simp] theorem State.setPc_DT (w : Word) : (s.setPc w).DT = s.DT := rfl
@[simp] theorem State.setPc_ST (w : Word) : (s.setPc w).ST = s.ST := rfl
@[simp] theorem State.setPc_key (w : Word) : (s.setPc w).key = s.key := rfl
@[simp] theorem State.setPc_wait (w : Word) : (s.setPc w).wait = s.wait := rfl
@[simp] theorem State.setPc_rel (w : Word) : (s.setPc w).rel = s.rel := rfl
@[simp] theorem State.setPc_fb (w : Word) : (s.setPc w).fb = s.fb := rfl
@[simp] theorem State.setPc_halted (w : Word) : (s.setPc w).halted = s.halted := rfl
@[simp] theorem State.setPc_faultCode (w : Word) : (s.setPc w).faultCode = s.faultCode := rfl
@[simp] theorem State.setPc_faultOp (w : Word) : (s.setPc w).faultOp = s.faultOp := rfl
@[simp] theorem State.setPc_config (w : Word) : (s.setPc w).config = s.config := rfl
@[simp] theorem State.setPc_randDraws (w : Word) : (s.setPc w).randDraws = s.randDraws := rfl
@[simp] theorem State.setPc_readyDraws (w : Word) : (s.setPc w).readyDraws = s.readyDraws := rfl

/-! ### `advance` -/

@[simp] theorem State.advance_V : (s.advance).V = s.V := rfl
@[simp] theorem State.advance_I : (s.advance).I = s.I := rfl
@[simp] theorem State.advance_pc : (s.advance).pc = s.pc + 2 := rfl
@[simp] theorem State.advance_sp : (s.advance).sp = s.sp := rfl
@[simp] theorem State.advance_stack : (s.advance).stack = s.stack := rfl
@[simp] theorem State.advance_mem : (s.advance).mem = s.mem := rfl
@[simp] theorem State.advance_DT : (s.advance).DT = s.DT := rfl
@[simp] theorem State.advance_ST : (s.advance).ST = s.ST := rfl
@[simp] theorem State.advance_key : (s.advance).key = s.key := rfl
@[simp] theorem State.advance_wait : (s.advance).wait = s.wait := rfl
@[simp] theorem State.advance_rel : (s.advance).rel = s.rel := rfl
@[simp] theorem State.advance_fb : (s.advance).fb = s.fb := rfl
@[simp] theorem State.advance_halted : (s.advance).halted = s.halted := rfl
@[simp] theorem State.advance_faultCode : (s.advance).faultCode = s.faultCode := rfl
@[simp] theorem State.advance_faultOp : (s.advance).faultOp = s.faultOp := rfl
@[simp] theorem State.advance_config : (s.advance).config = s.config := rfl
@[simp] theorem State.advance_randDraws : (s.advance).randDraws = s.randDraws := rfl
@[simp] theorem State.advance_readyDraws : (s.advance).readyDraws = s.readyDraws := rfl

/-! ### `rewind` -/

@[simp] theorem State.rewind_V : (s.rewind).V = s.V := rfl
@[simp] theorem State.rewind_I : (s.rewind).I = s.I := rfl
@[simp] theorem State.rewind_pc : (s.rewind).pc = s.pc - 2 := rfl
@[simp] theorem State.rewind_sp : (s.rewind).sp = s.sp := rfl
@[simp] theorem State.rewind_stack : (s.rewind).stack = s.stack := rfl
@[simp] theorem State.rewind_mem : (s.rewind).mem = s.mem := rfl
@[simp] theorem State.rewind_DT : (s.rewind).DT = s.DT := rfl
@[simp] theorem State.rewind_ST : (s.rewind).ST = s.ST := rfl
@[simp] theorem State.rewind_key : (s.rewind).key = s.key := rfl
@[simp] theorem State.rewind_wait : (s.rewind).wait = s.wait := rfl
@[simp] theorem State.rewind_rel : (s.rewind).rel = s.rel := rfl
@[simp] theorem State.rewind_fb : (s.rewind).fb = s.fb := rfl
@[simp] theorem State.rewind_halted : (s.rewind).halted = s.halted := rfl
@[simp] theorem State.rewind_faultCode : (s.rewind).faultCode = s.faultCode := rfl
@[simp] theorem State.rewind_faultOp : (s.rewind).faultOp = s.faultOp := rfl
@[simp] theorem State.rewind_config : (s.rewind).config = s.config := rfl
@[simp] theorem State.rewind_randDraws : (s.rewind).randDraws = s.randDraws := rfl
@[simp] theorem State.rewind_readyDraws : (s.rewind).readyDraws = s.readyDraws := rfl

/-! ### `skipIf` -/

@[simp] theorem State.skipIf_V (b : Bool) : (s.skipIf b).V = s.V := by cases b <;> rfl
@[simp] theorem State.skipIf_I (b : Bool) : (s.skipIf b).I = s.I := by cases b <;> rfl
@[simp] theorem State.skipIf_pc (b : Bool) : (s.skipIf b).pc = if b then s.pc + 2 else s.pc := by cases b <;> rfl
@[simp] theorem State.skipIf_sp (b : Bool) : (s.skipIf b).sp = s.sp := by cases b <;> rfl
@[simp] theorem State.skipIf_stack (b : Bool) : (s.skipIf b).stack = s.stack := by cases b <;> rfl
@[simp] theorem State.skipIf_mem (b : Bool) : (s.skipIf b).mem = s.mem := by cases b <;> rfl
@[simp] theorem State.skipIf_DT (b : Bool) : (s.skipIf b).DT = s.DT := by cases b <;> rfl
@[simp] theorem State.skipIf_ST (b : Bool) : (s.skipIf b).ST = s.ST := by cases b <;> rfl
@[simp] theorem State.skipIf_key (b : Bool) : (s.skipIf b).key = s.key := by cases b <;> rfl
@[simp] theorem State.skipIf_wait (b : Bool) : (s.skipIf b).wait = s.wait := by cases b <;> rfl
@[simp] theorem State.skipIf_rel (b : Bool) : (s.skipIf b).rel = s.rel := by cases b <;> rfl
@[simp] theorem State.skipIf_fb (b : Bool) : (s.skipIf b).fb = s.fb := by cases b <;> rfl
@[simp] theorem State.skipIf_halted (b : Bool) : (s.skipIf b).halted = s.halted := by cases b <;> rfl
@[simp] theorem State.skipIf_faultCode (b : Bool) : (s.skipIf b).faultCode = s.faultCode := by cases b <;> rfl
@[simp] theorem State.skipIf_faultOp (b : Bool) : (s.skipIf b).faultOp = s.faultOp := by cases b <;> rfl
@[simp] theorem State.skipIf_config (b : Bool) : (s.skipIf b).config = s.config := by cases b <;> rfl
@[simp] theorem State.skipIf_randDraws (b : Bool) : (s.skipIf b).randDraws = s.randDraws := by cases b <;> rfl
@[simp] theorem State.skipIf_readyDraws (b : Bool) : (s.skipIf b).readyDraws = s.readyDraws := by cases b <;> rfl

/-! ### `writeByte` -/

@[simp] theorem State.writeByte_V (a : Word) (v : Byte) : (s.writeByte a v).V = s.V := rfl
@[simp] theorem State.writeByte_I (a : Word) (v : Byte) : (s.writeByte a v).I = s.I := rfl
@[simp] theorem State.writeByte_pc (a : Word) (v : Byte) : (s.writeByte a v).pc = s.pc := rfl
@[simp] theorem State.writeByte_sp (a : Word) (v : Byte) : (s.writeByte a v).sp = s.sp := rfl
@[simp] theorem State.writeByte_stack (a : Word) (v : Byte) : (s.writeByte a v).stack = s.stack := rfl
@[simp] theorem State.writeByte_mem (a : Word) (v : Byte) : (s.writeByte a v).mem = Memory.store s.config (memIndex a) v s.mem := rfl
@[simp] theorem State.writeByte_DT (a : Word) (v : Byte) : (s.writeByte a v).DT = s.DT := rfl
@[simp] theorem State.writeByte_ST (a : Word) (v : Byte) : (s.writeByte a v).ST = s.ST := rfl
@[simp] theorem State.writeByte_key (a : Word) (v : Byte) : (s.writeByte a v).key = s.key := rfl
@[simp] theorem State.writeByte_wait (a : Word) (v : Byte) : (s.writeByte a v).wait = s.wait := rfl
@[simp] theorem State.writeByte_rel (a : Word) (v : Byte) : (s.writeByte a v).rel = s.rel := rfl
@[simp] theorem State.writeByte_fb (a : Word) (v : Byte) : (s.writeByte a v).fb = s.fb := rfl
@[simp] theorem State.writeByte_halted (a : Word) (v : Byte) : (s.writeByte a v).halted = s.halted := rfl
@[simp] theorem State.writeByte_faultCode (a : Word) (v : Byte) : (s.writeByte a v).faultCode = s.faultCode := rfl
@[simp] theorem State.writeByte_faultOp (a : Word) (v : Byte) : (s.writeByte a v).faultOp = s.faultOp := rfl
@[simp] theorem State.writeByte_config (a : Word) (v : Byte) : (s.writeByte a v).config = s.config := rfl
@[simp] theorem State.writeByte_randDraws (a : Word) (v : Byte) : (s.writeByte a v).randDraws = s.randDraws := rfl
@[simp] theorem State.writeByte_readyDraws (a : Word) (v : Byte) : (s.writeByte a v).readyDraws = s.readyDraws := rfl

/-! ### `setFb` -/

@[simp] theorem State.setFb_V (f : Framebuffer) : (s.setFb f).V = s.V := rfl
@[simp] theorem State.setFb_I (f : Framebuffer) : (s.setFb f).I = s.I := rfl
@[simp] theorem State.setFb_pc (f : Framebuffer) : (s.setFb f).pc = s.pc := rfl
@[simp] theorem State.setFb_sp (f : Framebuffer) : (s.setFb f).sp = s.sp := rfl
@[simp] theorem State.setFb_stack (f : Framebuffer) : (s.setFb f).stack = s.stack := rfl
@[simp] theorem State.setFb_mem (f : Framebuffer) : (s.setFb f).mem = s.mem := rfl
@[simp] theorem State.setFb_DT (f : Framebuffer) : (s.setFb f).DT = s.DT := rfl
@[simp] theorem State.setFb_ST (f : Framebuffer) : (s.setFb f).ST = s.ST := rfl
@[simp] theorem State.setFb_key (f : Framebuffer) : (s.setFb f).key = s.key := rfl
@[simp] theorem State.setFb_wait (f : Framebuffer) : (s.setFb f).wait = s.wait := rfl
@[simp] theorem State.setFb_rel (f : Framebuffer) : (s.setFb f).rel = s.rel := rfl
@[simp] theorem State.setFb_fb (f : Framebuffer) : (s.setFb f).fb = f := rfl
@[simp] theorem State.setFb_halted (f : Framebuffer) : (s.setFb f).halted = s.halted := rfl
@[simp] theorem State.setFb_faultCode (f : Framebuffer) : (s.setFb f).faultCode = s.faultCode := rfl
@[simp] theorem State.setFb_faultOp (f : Framebuffer) : (s.setFb f).faultOp = s.faultOp := rfl
@[simp] theorem State.setFb_config (f : Framebuffer) : (s.setFb f).config = s.config := rfl
@[simp] theorem State.setFb_randDraws (f : Framebuffer) : (s.setFb f).randDraws = s.randDraws := rfl
@[simp] theorem State.setFb_readyDraws (f : Framebuffer) : (s.setFb f).readyDraws = s.readyDraws := rfl

/-! ### `setKey` -/

@[simp] theorem State.setKey_V (k : Key) (b : Bool) : (s.setKey k b).V = s.V := rfl
@[simp] theorem State.setKey_I (k : Key) (b : Bool) : (s.setKey k b).I = s.I := rfl
@[simp] theorem State.setKey_pc (k : Key) (b : Bool) : (s.setKey k b).pc = s.pc := rfl
@[simp] theorem State.setKey_sp (k : Key) (b : Bool) : (s.setKey k b).sp = s.sp := rfl
@[simp] theorem State.setKey_stack (k : Key) (b : Bool) : (s.setKey k b).stack = s.stack := rfl
@[simp] theorem State.setKey_mem (k : Key) (b : Bool) : (s.setKey k b).mem = s.mem := rfl
@[simp] theorem State.setKey_DT (k : Key) (b : Bool) : (s.setKey k b).DT = s.DT := rfl
@[simp] theorem State.setKey_ST (k : Key) (b : Bool) : (s.setKey k b).ST = s.ST := rfl
@[simp] theorem State.setKey_key (k : Key) (b : Bool) : (s.setKey k b).key = s.key.set k b := rfl
@[simp] theorem State.setKey_wait (k : Key) (b : Bool) : (s.setKey k b).wait = s.wait := rfl
@[simp] theorem State.setKey_rel (k : Key) (b : Bool) : (s.setKey k b).rel = s.rel := rfl
@[simp] theorem State.setKey_fb (k : Key) (b : Bool) : (s.setKey k b).fb = s.fb := rfl
@[simp] theorem State.setKey_halted (k : Key) (b : Bool) : (s.setKey k b).halted = s.halted := rfl
@[simp] theorem State.setKey_faultCode (k : Key) (b : Bool) : (s.setKey k b).faultCode = s.faultCode := rfl
@[simp] theorem State.setKey_faultOp (k : Key) (b : Bool) : (s.setKey k b).faultOp = s.faultOp := rfl
@[simp] theorem State.setKey_config (k : Key) (b : Bool) : (s.setKey k b).config = s.config := rfl
@[simp] theorem State.setKey_randDraws (k : Key) (b : Bool) : (s.setKey k b).randDraws = s.randDraws := rfl
@[simp] theorem State.setKey_readyDraws (k : Key) (b : Bool) : (s.setKey k b).readyDraws = s.readyDraws := rfl

/-! ### `setWait` -/

@[simp] theorem State.setWait_V (w : Bool) (r : Option Key) : (s.setWait w r).V = s.V := rfl
@[simp] theorem State.setWait_I (w : Bool) (r : Option Key) : (s.setWait w r).I = s.I := rfl
@[simp] theorem State.setWait_pc (w : Bool) (r : Option Key) : (s.setWait w r).pc = s.pc := rfl
@[simp] theorem State.setWait_sp (w : Bool) (r : Option Key) : (s.setWait w r).sp = s.sp := rfl
@[simp] theorem State.setWait_stack (w : Bool) (r : Option Key) : (s.setWait w r).stack = s.stack := rfl
@[simp] theorem State.setWait_mem (w : Bool) (r : Option Key) : (s.setWait w r).mem = s.mem := rfl
@[simp] theorem State.setWait_DT (w : Bool) (r : Option Key) : (s.setWait w r).DT = s.DT := rfl
@[simp] theorem State.setWait_ST (w : Bool) (r : Option Key) : (s.setWait w r).ST = s.ST := rfl
@[simp] theorem State.setWait_key (w : Bool) (r : Option Key) : (s.setWait w r).key = s.key := rfl
@[simp] theorem State.setWait_wait (w : Bool) (r : Option Key) : (s.setWait w r).wait = w := rfl
@[simp] theorem State.setWait_rel (w : Bool) (r : Option Key) : (s.setWait w r).rel = r := rfl
@[simp] theorem State.setWait_fb (w : Bool) (r : Option Key) : (s.setWait w r).fb = s.fb := rfl
@[simp] theorem State.setWait_halted (w : Bool) (r : Option Key) : (s.setWait w r).halted = s.halted := rfl
@[simp] theorem State.setWait_faultCode (w : Bool) (r : Option Key) : (s.setWait w r).faultCode = s.faultCode := rfl
@[simp] theorem State.setWait_faultOp (w : Bool) (r : Option Key) : (s.setWait w r).faultOp = s.faultOp := rfl
@[simp] theorem State.setWait_config (w : Bool) (r : Option Key) : (s.setWait w r).config = s.config := rfl
@[simp] theorem State.setWait_randDraws (w : Bool) (r : Option Key) : (s.setWait w r).randDraws = s.randDraws := rfl
@[simp] theorem State.setWait_readyDraws (w : Bool) (r : Option Key) : (s.setWait w r).readyDraws = s.readyDraws := rfl

/-! ### `usedRandom` -/

@[simp] theorem State.usedRandom_V : (s.usedRandom).V = s.V := rfl
@[simp] theorem State.usedRandom_I : (s.usedRandom).I = s.I := rfl
@[simp] theorem State.usedRandom_pc : (s.usedRandom).pc = s.pc := rfl
@[simp] theorem State.usedRandom_sp : (s.usedRandom).sp = s.sp := rfl
@[simp] theorem State.usedRandom_stack : (s.usedRandom).stack = s.stack := rfl
@[simp] theorem State.usedRandom_mem : (s.usedRandom).mem = s.mem := rfl
@[simp] theorem State.usedRandom_DT : (s.usedRandom).DT = s.DT := rfl
@[simp] theorem State.usedRandom_ST : (s.usedRandom).ST = s.ST := rfl
@[simp] theorem State.usedRandom_key : (s.usedRandom).key = s.key := rfl
@[simp] theorem State.usedRandom_wait : (s.usedRandom).wait = s.wait := rfl
@[simp] theorem State.usedRandom_rel : (s.usedRandom).rel = s.rel := rfl
@[simp] theorem State.usedRandom_fb : (s.usedRandom).fb = s.fb := rfl
@[simp] theorem State.usedRandom_halted : (s.usedRandom).halted = s.halted := rfl
@[simp] theorem State.usedRandom_faultCode : (s.usedRandom).faultCode = s.faultCode := rfl
@[simp] theorem State.usedRandom_faultOp : (s.usedRandom).faultOp = s.faultOp := rfl
@[simp] theorem State.usedRandom_config : (s.usedRandom).config = s.config := rfl
@[simp] theorem State.usedRandom_randDraws : (s.usedRandom).randDraws = s.randDraws + 1 := rfl
@[simp] theorem State.usedRandom_readyDraws : (s.usedRandom).readyDraws = s.readyDraws := rfl

/-! ### `usedReady` -/

@[simp] theorem State.usedReady_V : (s.usedReady).V = s.V := rfl
@[simp] theorem State.usedReady_I : (s.usedReady).I = s.I := rfl
@[simp] theorem State.usedReady_pc : (s.usedReady).pc = s.pc := rfl
@[simp] theorem State.usedReady_sp : (s.usedReady).sp = s.sp := rfl
@[simp] theorem State.usedReady_stack : (s.usedReady).stack = s.stack := rfl
@[simp] theorem State.usedReady_mem : (s.usedReady).mem = s.mem := rfl
@[simp] theorem State.usedReady_DT : (s.usedReady).DT = s.DT := rfl
@[simp] theorem State.usedReady_ST : (s.usedReady).ST = s.ST := rfl
@[simp] theorem State.usedReady_key : (s.usedReady).key = s.key := rfl
@[simp] theorem State.usedReady_wait : (s.usedReady).wait = s.wait := rfl
@[simp] theorem State.usedReady_rel : (s.usedReady).rel = s.rel := rfl
@[simp] theorem State.usedReady_fb : (s.usedReady).fb = s.fb := rfl
@[simp] theorem State.usedReady_halted : (s.usedReady).halted = s.halted := rfl
@[simp] theorem State.usedReady_faultCode : (s.usedReady).faultCode = s.faultCode := rfl
@[simp] theorem State.usedReady_faultOp : (s.usedReady).faultOp = s.faultOp := rfl
@[simp] theorem State.usedReady_config : (s.usedReady).config = s.config := rfl
@[simp] theorem State.usedReady_randDraws : (s.usedReady).randDraws = s.randDraws := rfl
@[simp] theorem State.usedReady_readyDraws : (s.usedReady).readyDraws = s.readyDraws + 1 := rfl

/-! ### `raiseFatal` -/

@[simp] theorem State.raiseFatal_V (c : FaultCode) (op : Word) : (s.raiseFatal c op).V = s.V := rfl
@[simp] theorem State.raiseFatal_I (c : FaultCode) (op : Word) : (s.raiseFatal c op).I = s.I := rfl
@[simp] theorem State.raiseFatal_pc (c : FaultCode) (op : Word) : (s.raiseFatal c op).pc = s.pc := rfl
@[simp] theorem State.raiseFatal_sp (c : FaultCode) (op : Word) : (s.raiseFatal c op).sp = s.sp := rfl
@[simp] theorem State.raiseFatal_stack (c : FaultCode) (op : Word) : (s.raiseFatal c op).stack = s.stack := rfl
@[simp] theorem State.raiseFatal_mem (c : FaultCode) (op : Word) : (s.raiseFatal c op).mem = s.mem := rfl
@[simp] theorem State.raiseFatal_DT (c : FaultCode) (op : Word) : (s.raiseFatal c op).DT = s.DT := rfl
@[simp] theorem State.raiseFatal_ST (c : FaultCode) (op : Word) : (s.raiseFatal c op).ST = s.ST := rfl
@[simp] theorem State.raiseFatal_key (c : FaultCode) (op : Word) : (s.raiseFatal c op).key = s.key := rfl
@[simp] theorem State.raiseFatal_wait (c : FaultCode) (op : Word) : (s.raiseFatal c op).wait = s.wait := rfl
@[simp] theorem State.raiseFatal_rel (c : FaultCode) (op : Word) : (s.raiseFatal c op).rel = s.rel := rfl
@[simp] theorem State.raiseFatal_fb (c : FaultCode) (op : Word) : (s.raiseFatal c op).fb = s.fb := rfl
@[simp] theorem State.raiseFatal_halted (c : FaultCode) (op : Word) : (s.raiseFatal c op).halted = true := rfl
@[simp] theorem State.raiseFatal_faultCode (c : FaultCode) (op : Word) : (s.raiseFatal c op).faultCode = c := rfl
@[simp] theorem State.raiseFatal_faultOp (c : FaultCode) (op : Word) : (s.raiseFatal c op).faultOp = op := rfl
@[simp] theorem State.raiseFatal_config (c : FaultCode) (op : Word) : (s.raiseFatal c op).config = s.config := rfl
@[simp] theorem State.raiseFatal_randDraws (c : FaultCode) (op : Word) : (s.raiseFatal c op).randDraws = s.randDraws := rfl
@[simp] theorem State.raiseFatal_readyDraws (c : FaultCode) (op : Word) : (s.raiseFatal c op).readyDraws = s.readyDraws := rfl

/-! ### `clearLatch` -/

@[simp] theorem State.clearLatch_V : (s.clearLatch).V = s.V := rfl
@[simp] theorem State.clearLatch_I : (s.clearLatch).I = s.I := rfl
@[simp] theorem State.clearLatch_pc : (s.clearLatch).pc = s.pc := rfl
@[simp] theorem State.clearLatch_sp : (s.clearLatch).sp = s.sp := rfl
@[simp] theorem State.clearLatch_stack : (s.clearLatch).stack = s.stack := rfl
@[simp] theorem State.clearLatch_mem : (s.clearLatch).mem = s.mem := rfl
@[simp] theorem State.clearLatch_DT : (s.clearLatch).DT = s.DT := rfl
@[simp] theorem State.clearLatch_ST : (s.clearLatch).ST = s.ST := rfl
@[simp] theorem State.clearLatch_key : (s.clearLatch).key = s.key := rfl
@[simp] theorem State.clearLatch_wait : (s.clearLatch).wait = s.wait := rfl
@[simp] theorem State.clearLatch_rel : (s.clearLatch).rel = s.rel := rfl
@[simp] theorem State.clearLatch_fb : (s.clearLatch).fb = s.fb := rfl
@[simp] theorem State.clearLatch_halted : (s.clearLatch).halted = false := rfl
@[simp] theorem State.clearLatch_faultCode : (s.clearLatch).faultCode = .noFault := rfl
@[simp] theorem State.clearLatch_faultOp : (s.clearLatch).faultOp = 0 := rfl
@[simp] theorem State.clearLatch_config : (s.clearLatch).config = s.config := rfl
@[simp] theorem State.clearLatch_randDraws : (s.clearLatch).randDraws = s.randDraws := rfl
@[simp] theorem State.clearLatch_readyDraws : (s.clearLatch).readyDraws = s.readyDraws := rfl

/-! ### Reset -/

@[simp] theorem State.resetWith_V (c : Config) : (State.resetWith c).V = Vector.replicate 16 0 := rfl
@[simp] theorem State.resetWith_I (c : Config) : (State.resetWith c).I = 0 := rfl
@[simp] theorem State.resetWith_pc (c : Config) : (State.resetWith c).pc = 0x0200 := rfl
@[simp] theorem State.resetWith_sp (c : Config) : (State.resetWith c).sp = 0 := rfl
@[simp] theorem State.resetWith_stack (c : Config) : (State.resetWith c).stack = Vector.replicate 16 0 := rfl
@[simp] theorem State.resetWith_mem (c : Config) : (State.resetWith c).mem = [] := rfl
@[simp] theorem State.resetWith_DT (c : Config) : (State.resetWith c).DT = 0 := rfl
@[simp] theorem State.resetWith_ST (c : Config) : (State.resetWith c).ST = 0 := rfl
@[simp] theorem State.resetWith_key (c : Config) : (State.resetWith c).key = Vector.replicate 16 false := rfl
@[simp] theorem State.resetWith_wait (c : Config) : (State.resetWith c).wait = false := rfl
@[simp] theorem State.resetWith_rel (c : Config) : (State.resetWith c).rel = none := rfl
@[simp] theorem State.resetWith_fb (c : Config) : (State.resetWith c).fb = Vector.replicate 32 (Vector.replicate 64 false) := rfl
@[simp] theorem State.resetWith_halted (c : Config) : (State.resetWith c).halted = false := rfl
@[simp] theorem State.resetWith_faultCode (c : Config) : (State.resetWith c).faultCode = .noFault := rfl
@[simp] theorem State.resetWith_faultOp (c : Config) : (State.resetWith c).faultOp = 0 := rfl
@[simp] theorem State.resetWith_config (c : Config) : (State.resetWith c).config = c := rfl
@[simp] theorem State.resetWith_randDraws (c : Config) : (State.resetWith c).randDraws = 0 := rfl
@[simp] theorem State.resetWith_readyDraws (c : Config) : (State.resetWith c).readyDraws = 0 := rfl

end Sys2Proof.Machine
end

