-- ==== Sys2Proof/Laws/Display.lean ====
section
/-! SUPPORT. The drawing loop, pixel by pixel and row by row. -/

namespace Sys2Proof.Machine

/-- One flipped cell. -/
theorem flipCell_get (f : Framebuffer) (row r : Fin 32) (col c : Fin 64) :
    (flipCell f row col)[r][c] = if r = row ∧ c = col then !f[r][c] else f[r][c] := by
  simp only [flipCell, Fin.getElem_fin, Vector.getElem_set]
  by_cases hr : r = row
  · subst hr
    by_cases hc : c = col
    · simp [hc]
    · have : col.val ≠ c.val := fun e => hc (Fin.ext e.symm)
      simp [hc, this]
  · have : row.val ≠ r.val := fun e => hr (Fin.ext e.symm)
    simp [hr, this]

/-- Everything that one pixel can do (43_display.md R191, R194, R195). -/
theorem plotPixel_cases (b : Byte) (row x0 : Nat) (acc : Framebuffer × Bool) (k : Nat) :
    (¬ (row < 32 ∧ x0 + k < 64 ∧ spritePixel b k = true) ∧ plotPixel b row x0 acc k = acc) ∨
    ∃ (hr : row < 32) (hc : x0 + k < 64), spritePixel b k = true ∧
      plotPixel b row x0 acc k =
        (flipCell acc.1 ⟨row, hr⟩ ⟨x0 + k, hc⟩, acc.2 || acc.1[row][x0 + k]) := by
  unfold plotPixel
  split
  · next h =>
    split
    · next hb => exact .inr ⟨h.1, h.2, hb, rfl⟩
    · next hb => exact .inl ⟨fun e => hb e.2.2, rfl⟩
  · next h => exact .inl ⟨fun e => h ⟨e.1, e.2.1⟩, rfl⟩

/-- A pixel's effect on one cell. -/
theorem plotPixel_get (b : Byte) (row x0 : Nat) (acc : Framebuffer × Bool) (k : Nat) (r : Fin 32) (c : Fin 64) :
    (plotPixel b row x0 acc k).1[r][c] =
      (acc.1[r][c] ^^ (decide (r.val = row ∧ c.val = x0 + k) && spritePixel b k)) := by
  rcases plotPixel_cases b row x0 acc k with ⟨h, e⟩ | ⟨hr, hc, hb, e⟩
  · rw [e]
    by_cases h' : r.val = row ∧ c.val = x0 + k
    · have : spritePixel b k = false := by
        cases hs : spritePixel b k
        · rfl
        · exact absurd ⟨by omega, by omega, hs⟩ h
      simp [this]
    · simp [h']
  · rw [e, flipCell_get, hb]
    by_cases h' : r.val = row ∧ c.val = x0 + k
    · have : r = ⟨row, hr⟩ ∧ c = ⟨x0 + k, hc⟩ := ⟨Fin.ext h'.1, Fin.ext h'.2⟩
      simp [this]
    · have : ¬ (r = ⟨row, hr⟩ ∧ c = ⟨x0 + k, hc⟩) := fun e => h' ⟨congrArg Fin.val e.1, congrArg Fin.val e.2⟩
      simp [h', this]

/-- A pixel's effect on the collision flag. -/
theorem plotPixel_hit (b : Byte) (row x0 : Nat) (acc : Framebuffer × Bool) (k : Nat) :
    (plotPixel b row x0 acc k).2 = true ↔ acc.2 = true ∨
      ∃ (r : Fin 32) (c : Fin 64), r.val = row ∧ c.val = x0 + k ∧ spritePixel b k = true ∧ acc.1[r][c] = true := by
  rcases plotPixel_cases b row x0 acc k with ⟨h, e⟩ | ⟨hr, hc, hb, e⟩
  · rw [e]
    refine ⟨.inl, fun h' => h'.elim id ?_⟩
    rintro ⟨r, c, hr, hc, hb, -⟩
    exact absurd ⟨by omega, by omega, hb⟩ h
  · rw [e]
    simp only [Bool.or_eq_true]
    refine or_congr Iff.rfl ⟨fun h => ⟨⟨row, hr⟩, ⟨x0 + k, hc⟩, rfl, rfl, hb, h⟩, ?_⟩
    rintro ⟨r, c, rfl, hc', -, h⟩
    have : c = ⟨x0 + k, hc⟩ := Fin.ext hc'
    subst this
    exact h

/-- The first `m` pixels of a row: each cell of the row under them is exclusive-ored once, no other cell changes, and the flag
sticks where a set pixel lands on a set cell. -/
theorem plotPixels_spec (b : Byte) (row x0 : Nat) (acc : Framebuffer × Bool) (m : Nat) :
    (∀ (r : Fin 32) (c : Fin 64), ((List.range m).foldl (plotPixel b row x0) acc).1[r][c] =
      (acc.1[r][c] ^^ (decide (r.val = row ∧ x0 ≤ c.val ∧ c.val < x0 + m) && spritePixel b (c.val - x0)))) ∧
    (((List.range m).foldl (plotPixel b row x0) acc).2 = true ↔ acc.2 = true ∨
      ∃ (r : Fin 32) (c : Fin 64), r.val = row ∧ x0 ≤ c.val ∧ c.val < x0 + m ∧
        spritePixel b (c.val - x0) = true ∧ acc.1[r][c] = true) := by
  induction m with
  | zero =>
    refine ⟨fun r c => ?_, ?_⟩
    · have : ¬ (r.val = row ∧ x0 ≤ c.val ∧ c.val < x0 + 0) := by omega
      simp only [this, decide_false, Bool.false_and, Bool.xor_false, List.range_zero, List.foldl_nil]
    · refine ⟨.inl, fun h => h.elim id ?_⟩
      rintro ⟨r, c, -, h1, h2, -⟩
      omega
  | succ m ih =>
    obtain ⟨ihc, ihh⟩ := ih
    simp only [List.range_succ, List.foldl_append, List.foldl_cons, List.foldl_nil]
    refine ⟨fun r c => ?_, ?_⟩
    · rw [plotPixel_get, ihc]
      by_cases hc : c.val = x0 + m
      · have h1 : ¬ (r.val = row ∧ x0 ≤ c.val ∧ c.val < x0 + m) := by omega
        have h2 : c.val - x0 = m := by omega
        have h3 : (r.val = row ∧ x0 ≤ c.val ∧ c.val < x0 + (m + 1)) ↔ (r.val = row ∧ c.val = x0 + m) := by omega
        simp only [h1, h2, h3, decide_false, Bool.false_and, Bool.xor_false]
      · have h1 : ¬ (r.val = row ∧ c.val = x0 + m) := by omega
        have h2 : (r.val = row ∧ x0 ≤ c.val ∧ c.val < x0 + (m + 1)) ↔
            (r.val = row ∧ x0 ≤ c.val ∧ c.val < x0 + m) := by omega
        simp only [h1, h2, decide_false, Bool.false_and, Bool.xor_false]
    · rw [plotPixel_hit, ihh, or_assoc]
      refine or_congr Iff.rfl ⟨?_, ?_⟩
      · rintro (⟨r, c, h1, h2, h3, h4, h5⟩ | ⟨r, c, h1, h2, h3, h4⟩)
        · exact ⟨r, c, h1, h2, by omega, h4, h5⟩
        · refine ⟨r, c, h1, by omega, by omega, by rwa [show c.val - x0 = m by omega], ?_⟩
          have h6 : ¬ (r.val = row ∧ x0 ≤ c.val ∧ c.val < x0 + m) := by omega
          rw [ihc] at h4
          simpa only [h6, decide_false, Bool.false_and, Bool.xor_false] using h4
      · rintro ⟨r, c, h1, h2, h3, h4, h5⟩
        by_cases hc : c.val = x0 + m
        · refine .inr ⟨r, c, h1, hc, by rwa [show c.val - x0 = m by omega] at h4, ?_⟩
          have h6 : ¬ (r.val = row ∧ x0 ≤ c.val ∧ c.val < x0 + m) := by omega
          rw [ihc]
          simpa only [h6, decide_false, Bool.false_and, Bool.xor_false] using h5
        · exact .inl ⟨r, c, h1, h2, by omega, h4, h5⟩

/-- The first `n` rows of a sprite, as `plotPixels_spec` says for one row. -/
theorem plotRows_spec (sprite : Nat → Byte) (y0 x0 : Nat) (acc : Framebuffer × Bool) (n : Nat) :
    (∀ (r : Fin 32) (c : Fin 64),
      ((List.range n).foldl (fun acc r => plotRow (sprite r) (y0 + r) x0 acc) acc).1[r][c] =
      (acc.1[r][c] ^^ (decide (y0 ≤ r.val ∧ r.val < y0 + n ∧ x0 ≤ c.val ∧ c.val < x0 + 8) &&
        spritePixel (sprite (r.val - y0)) (c.val - x0)))) ∧
    (((List.range n).foldl (fun acc r => plotRow (sprite r) (y0 + r) x0 acc) acc).2 = true ↔ acc.2 = true ∨
      ∃ (r : Fin 32) (c : Fin 64), y0 ≤ r.val ∧ r.val < y0 + n ∧ x0 ≤ c.val ∧ c.val < x0 + 8 ∧
        spritePixel (sprite (r.val - y0)) (c.val - x0) = true ∧ acc.1[r][c] = true) := by
  induction n with
  | zero =>
    refine ⟨fun r c => ?_, ?_⟩
    · have : ¬ (y0 ≤ r.val ∧ r.val < y0 + 0 ∧ x0 ≤ c.val ∧ c.val < x0 + 8) := by omega
      simp only [this, decide_false, Bool.false_and, Bool.xor_false, List.range_zero, List.foldl_nil]
    · refine ⟨.inl, fun h => h.elim id ?_⟩
      rintro ⟨r, c, h1, h2, -⟩
      omega
  | succ n ih =>
    obtain ⟨ihc, ihh⟩ := ih
    simp only [List.range_succ, List.foldl_append, List.foldl_cons, List.foldl_nil]
    obtain ⟨hc, hh⟩ := plotPixels_spec (sprite n) (y0 + n) x0
      ((List.range n).foldl (fun acc r => plotRow (sprite r) (y0 + r) x0 acc) acc) 8
    refine ⟨fun r c => ?_, ?_⟩
    · simp only [plotRow] at hc ihc ⊢
      rw [hc, ihc]
      by_cases hr : r.val = y0 + n
      · have h1 : ¬ (y0 ≤ r.val ∧ r.val < y0 + n ∧ x0 ≤ c.val ∧ c.val < x0 + 8) := by omega
        have h2 : r.val - y0 = n := by omega
        have h3 : (r.val = y0 + n ∧ x0 ≤ c.val ∧ c.val < x0 + 8) ↔
            (y0 ≤ r.val ∧ r.val < y0 + (n + 1) ∧ x0 ≤ c.val ∧ c.val < x0 + 8) := by omega
        simp only [h1, h2, h3, decide_false, Bool.false_and, Bool.xor_false]
      · have h1 : ¬ (r.val = y0 + n ∧ x0 ≤ c.val ∧ c.val < x0 + 8) := by omega
        have h3 : (y0 ≤ r.val ∧ r.val < y0 + n ∧ x0 ≤ c.val ∧ c.val < x0 + 8) ↔
            (y0 ≤ r.val ∧ r.val < y0 + (n + 1) ∧ x0 ≤ c.val ∧ c.val < x0 + 8) := by omega
        simp only [h1, h3, decide_false, Bool.false_and, Bool.xor_false]
    · simp only [plotRow] at hh ihh ihc ⊢
      rw [hh, ihh, or_assoc]
      refine or_congr Iff.rfl ⟨?_, ?_⟩
      · rintro (⟨r, c, h1, h2, h3, h4, h5, h6⟩ | ⟨r, c, h1, h2, h3, h4, h5⟩)
        · exact ⟨r, c, h1, by omega, h3, h4, h5, h6⟩
        · refine ⟨r, c, by omega, by omega, h2, h3, by rwa [show r.val - y0 = n by omega], ?_⟩
          have h6 : ¬ (y0 ≤ r.val ∧ r.val < y0 + n ∧ x0 ≤ c.val ∧ c.val < x0 + 8) := by omega
          rw [ihc] at h5
          simpa only [h6, decide_false, Bool.false_and, Bool.xor_false] using h5
      · rintro ⟨r, c, h1, h2, h3, h4, h5, h6⟩
        by_cases hr : r.val = y0 + n
        · refine .inr ⟨r, c, hr, h3, h4, by rwa [show r.val - y0 = n by omega] at h5, ?_⟩
          have h7 : ¬ (y0 ≤ r.val ∧ r.val < y0 + n ∧ x0 ≤ c.val ∧ c.val < x0 + 8) := by omega
          rw [ihc]
          simpa only [h7, decide_false, Bool.false_and, Bool.xor_false] using h6
        · exact .inl ⟨r, c, h1, by omega, h3, h4, h5, h6⟩

/-- The cells after a sprite is plotted. -/
theorem plotSprite_get (sprite : Nat → Byte) (n y0 x0 : Nat) (f : Framebuffer) (r : Fin 32) (c : Fin 64) :
    (plotSprite sprite n y0 x0 f).1[r][c] =
      (f[r][c] ^^ (decide (y0 ≤ r.val ∧ r.val < y0 + n ∧ x0 ≤ c.val ∧ c.val < x0 + 8) &&
        spritePixel (sprite (r.val - y0)) (c.val - x0))) :=
  (plotRows_spec sprite y0 x0 (f, false) n).1 r c

/-- When a plotted sprite collides. -/
theorem plotSprite_hit (sprite : Nat → Byte) (n y0 x0 : Nat) (f : Framebuffer) :
    (plotSprite sprite n y0 x0 f).2 = true ↔
      ∃ (r : Fin 32) (c : Fin 64), y0 ≤ r.val ∧ r.val < y0 + n ∧ x0 ≤ c.val ∧ c.val < x0 + 8 ∧
        spritePixel (sprite (r.val - y0)) (c.val - x0) = true ∧ f[r][c] = true :=
  (plotRows_spec sprite y0 x0 (f, false) n).2.trans (by simp)

end Sys2Proof.Machine
end

