-- ==== Sys2Proof/Laws/Encoding.lean ====
section
/-! SUPPORT. A packed opcode as a number, and its fields (30_encoding.md R92). -/

namespace Sys2Proof

theorem toNat_append_eq {m n : Nat} (a : BitVec m) (b : BitVec n) : (a ++ b).toNat = a.toNat * 2 ^ n + b.toNat := by
  rw [BitVec.toNat_append, ← Nat.shiftLeft_add_eq_or_of_lt b.isLt, Nat.shiftLeft_eq]

theorem nibble_toNat (x : Fin 16) : (nibble x).toNat = x.val := rfl

theorem packNNN_toNat (f : BitVec 4) (nnn : Addr) : (packNNN f nnn).toNat = f.toNat * 4096 + nnn.toNat :=
  toNat_append_eq f nnn

theorem packXNN_toNat (f : BitVec 4) (x : Reg) (nn : Byte) :
    (packXNN f x nn).toNat = (f.toNat * 16 + x.val) * 256 + nn.toNat := by
  unfold packXNN
  rw [toNat_append_eq, toNat_append_eq, nibble_toNat]
  rfl

theorem packXYN_toNat (f : BitVec 4) (x y : Reg) (n : BitVec 4) :
    (packXYN f x y n).toNat = ((f.toNat * 16 + x.val) * 16 + y.val) * 16 + n.toNat := by
  unfold packXYN
  rw [toNat_append_eq, toNat_append_eq, toNat_append_eq, nibble_toNat, nibble_toNat]
  rfl

/-- A field of an opcode as a number. -/
theorem field_toNat (op : Word) (lo len : Nat) : (op.extractLsb' lo len).toNat = op.toNat / 2 ^ lo % 2 ^ len := by
  rw [BitVec.extractLsb'_toNat, Nat.shiftRight_eq_div_pow]

theorem opFamily_toNat (op : Word) : (opFamily op).toNat = op.toNat / 4096 := by
  have := op.isLt
  rw [opFamily, field_toNat]
  omega

theorem opX_val (op : Word) : (opX op).val = op.toNat / 256 % 16 := field_toNat op 8 4

theorem opY_val (op : Word) : (opY op).val = op.toNat / 16 % 16 := field_toNat op 4 4

theorem opLow_toNat (op : Word) : (opLow op).toNat = op.toNat % 16 := by
  rw [opLow, field_toNat]
  omega

theorem opNN_toNat (op : Word) : (opNN op).toNat = op.toNat % 256 := by
  rw [opNN, field_toNat]
  omega

theorem opNNN_toNat (op : Word) : (opNNN op).toNat = op.toNat % 4096 := by
  rw [opNNN, field_toNat]
  omega

/-! ### The fields of a packed opcode -/

theorem opFamily_packNNN (f : BitVec 4) (nnn : Addr) : opFamily (packNNN f nnn) = f := by
  have := nnn.isLt
  exact BitVec.eq_of_toNat_eq (by rw [opFamily_toNat, packNNN_toNat]; omega)

theorem opNNN_packNNN (f : BitVec 4) (nnn : Addr) : opNNN (packNNN f nnn) = nnn := by
  have := nnn.isLt
  exact BitVec.eq_of_toNat_eq (by rw [opNNN_toNat, packNNN_toNat]; omega)

theorem opFamily_packXNN (f : BitVec 4) (x : Reg) (nn : Byte) : opFamily (packXNN f x nn) = f := by
  have := nn.isLt
  exact BitVec.eq_of_toNat_eq (by rw [opFamily_toNat, packXNN_toNat]; omega)

theorem opX_packXNN (f : BitVec 4) (x : Reg) (nn : Byte) : opX (packXNN f x nn) = x := by
  have := nn.isLt
  exact Fin.ext (by rw [opX_val, packXNN_toNat]; omega)

theorem opNN_packXNN (f : BitVec 4) (x : Reg) (nn : Byte) : opNN (packXNN f x nn) = nn := by
  have := nn.isLt
  exact BitVec.eq_of_toNat_eq (by rw [opNN_toNat, packXNN_toNat]; omega)

theorem opFamily_packXYN (f : BitVec 4) (x y : Reg) (n : BitVec 4) : opFamily (packXYN f x y n) = f := by
  have := n.isLt
  exact BitVec.eq_of_toNat_eq (by rw [opFamily_toNat, packXYN_toNat]; omega)

theorem opX_packXYN (f : BitVec 4) (x y : Reg) (n : BitVec 4) : opX (packXYN f x y n) = x := by
  have := n.isLt
  exact Fin.ext (by rw [opX_val, packXYN_toNat]; omega)

theorem opY_packXYN (f : BitVec 4) (x y : Reg) (n : BitVec 4) : opY (packXYN f x y n) = y := by
  have := n.isLt
  exact Fin.ext (by rw [opY_val, packXYN_toNat]; omega)

theorem opLow_packXYN (f : BitVec 4) (x y : Reg) (n : BitVec 4) : opLow (packXYN f x y n) = n := by
  have := n.isLt
  exact BitVec.eq_of_toNat_eq (by rw [opLow_toNat, packXYN_toNat]; omega)

/-! ### Masks -/

theorem getLsbD_packNNN (f : BitVec 4) (nnn : Addr) (i : Nat) :
    (packNNN f nnn).getLsbD i = if i < 12 then nnn.getLsbD i else f.getLsbD (i - 12) := BitVec.getLsbD_append

theorem getLsbD_packXNN (f : BitVec 4) (x : Reg) (nn : Byte) (i : Nat) :
    (packXNN f x nn).getLsbD i =
      if i < 8 then nn.getLsbD i else if i - 8 < 4 then (nibble x).getLsbD (i - 8) else f.getLsbD (i - 8 - 4) := by
  rw [← BitVec.getLsbD_append, ← BitVec.getLsbD_append]
  rfl

theorem getLsbD_packXYN (f : BitVec 4) (x y : Reg) (n : BitVec 4) (i : Nat) :
    (packXYN f x y n).getLsbD i =
      if i < 4 then n.getLsbD i else if i - 4 < 4 then (nibble y).getLsbD (i - 4)
      else if i - 4 - 4 < 4 then (nibble x).getLsbD (i - 4 - 4) else f.getLsbD (i - 4 - 4 - 4) := by
  rw [← BitVec.getLsbD_append, ← BitVec.getLsbD_append, ← BitVec.getLsbD_append]
  rfl

/-- `op & 0xF000` is the family nibble and twelve zeros. -/
theorem and_familyMask (op : Word) : op &&& 0xF000 = packNNN (opFamily op) 0 := by
  refine BitVec.eq_of_getLsbD_eq fun i hi => ?_
  rw [getLsbD_packNNN]
  interval_cases i <;> simp [opFamily]

/-- `op & 0xF00F` is the family nibble, eight zeros and the low nibble. -/
theorem and_subMask (op : Word) : op &&& 0xF00F = packXYN (opFamily op) 0 0 (opLow op) := by
  refine BitVec.eq_of_getLsbD_eq fun i hi => ?_
  rw [getLsbD_packXYN]
  interval_cases i <;> simp [opFamily, opLow, nibble]

/-- `op & 0xF0FF` is the family nibble, four zeros and the low byte. -/
theorem and_lowByteMask (op : Word) : op &&& 0xF0FF = packXNN (opFamily op) 0 (opNN op) := by
  refine BitVec.eq_of_getLsbD_eq fun i hi => ?_
  rw [getLsbD_packXNN]
  interval_cases i <;> simp [opFamily, opNN, nibble]

end Sys2Proof
end

