-- ==== Sys2Proof/Laws/Memory.lean ====
section
/-! SUPPORT. The memory block: a read after a write, and every write keeps the canonical form. -/

namespace Sys2Proof.Machine

theorem Memory.lookup_entry_append (c : Config) (a : Nat) (v : Byte) (m : Memory) (b : Nat)
    (h : Memory.lookup c m a = resetByte c a) :
    Memory.lookup c (Memory.entry c a v ++ m) b = if b = a then v else Memory.lookup c m b := by
  unfold Memory.entry
  by_cases hv : v = resetByte c a <;> by_cases hb : b = a <;> simp_all [Memory.lookup]

/-- An address below every listed one reads as the reset image. -/
theorem Memory.lookup_of_lt (c : Config) (m : Memory) (a : Nat) (h : ∀ e ∈ m, a < e.1) :
    Memory.lookup c m a = resetByte c a := by
  induction m with
  | nil => rfl
  | cons e m ih =>
    obtain ⟨b, v⟩ := e
    have hb : a < b := h (b, v) (by simp)
    simp only [Memory.lookup]
    rw [if_neg (by omega)]
    exact ih fun e he => h e (by simp [he])

/-- What canonical form says of a nonempty memory. -/
theorem Memory.wf_cons (c : Config) (a : Nat) (v : Byte) (m : Memory) :
    Memory.wf c ((a, v) :: m) = true ↔
      a < memSize ∧ v ≠ resetByte c a ∧ (∀ e ∈ m, a < e.1) ∧ Memory.wf c m = true := by
  simp [Memory.wf, and_assoc]

theorem Memory.wf_nil (c : Config) : Memory.wf c [] = true := rfl

/-- A read after a write (20_memory.md R62): the written address gives the value, every other one what it gave. -/
theorem Memory.lookup_store (c : Config) (a : Nat) (v : Byte) (m : Memory) (b : Nat) (h : Memory.wf c m = true) :
    Memory.lookup c (Memory.store c a v m) b = if b = a then v else Memory.lookup c m b := by
  induction m with
  | nil => simpa [Memory.store] using Memory.lookup_entry_append c a v [] b rfl
  | cons e m ih =>
    obtain ⟨k, w⟩ := e
    obtain ⟨-, -, hlt, hm⟩ := (Memory.wf_cons c k w m).mp h
    unfold Memory.store
    split
    · simp only [Memory.lookup, ih hm]
      split <;> split <;> first | rfl | omega
    · split
      · next hka =>
        subst hka
        rw [Memory.lookup_entry_append c k v m b (Memory.lookup_of_lt c m k hlt)]
        simp only [Memory.lookup]
        split <;> rfl
      · refine Memory.lookup_entry_append c a v _ b (Memory.lookup_of_lt c _ a ?_)
        intro e he
        rcases List.mem_cons.mp he with rfl | he
        · simp only; omega
        · have := hlt e he; omega

/-- The addresses that a write lists: no new one but the written one. -/
theorem Memory.mem_store (c : Config) (a : Nat) (v : Byte) (m : Memory) (e : Host.Cell)
    (he : e ∈ Memory.store c a v m) : e.1 = a ∨ e ∈ m := by
  induction m with
  | nil =>
    simp only [Memory.store, Memory.entry] at he
    split at he <;> simp_all
  | cons d m ih =>
    obtain ⟨k, w⟩ := d
    unfold Memory.store Memory.entry at he
    split at he
    · rcases List.mem_cons.mp he with h | h
      · exact .inr (by simp [h])
      · rcases ih h with h | h <;> simp [h]
    · split at he <;> split at he <;> simp at he <;> aesop

theorem Memory.wf_entry_append (c : Config) (a : Nat) (v : Byte) (m : Memory) (ha : a < memSize)
    (hlt : ∀ e ∈ m, a < e.1) (h : Memory.wf c m = true) : Memory.wf c (Memory.entry c a v ++ m) = true := by
  unfold Memory.entry
  split
  · simpa using h
  · next hv => exact (Memory.wf_cons c a v m).mpr ⟨ha, hv, hlt, h⟩

/-- Every write keeps the canonical form. -/
theorem Memory.store_wf (c : Config) (a : Nat) (v : Byte) (m : Memory) (ha : a < memSize)
    (h : Memory.wf c m = true) : Memory.wf c (Memory.store c a v m) = true := by
  induction m with
  | nil => exact by simpa [Memory.store] using Memory.wf_entry_append c a v [] ha (by simp) rfl
  | cons e m ih =>
    obtain ⟨k, w⟩ := e
    obtain ⟨hk, hw, hlt, hm⟩ := (Memory.wf_cons c k w m).mp h
    unfold Memory.store
    split
    · next hka =>
      refine (Memory.wf_cons c k w _).mpr ⟨hk, hw, fun e he => ?_, ih hm⟩
      rcases Memory.mem_store c a v m e he with h | h
      · omega
      · exact hlt e h
    · split
      · next hka => subst hka; exact Memory.wf_entry_append c k v m ha hlt hm
      · refine Memory.wf_entry_append c a v _ ha (fun e he => ?_) h
        rcases List.mem_cons.mp he with rfl | he
        · simp only; omega
        · have := hlt e he; omega

/-- The masked address is the address modulo 4096. -/
theorem memIndex_eq_mod (a : Word) : memIndex a = a.toNat % 4096 := by
  simp only [memIndex, BitVec.toNat_and]
  exact Nat.and_two_pow_sub_one_eq_mod a.toNat 12

/-- A masked address lies in the memory (20_memory.md R61: "No address is ever out of range"). -/
theorem memIndex_lt (a : Word) : memIndex a < memSize := by
  rw [memIndex_eq_mod]
  exact Nat.mod_lt _ (by decide)

/-- The reset image outside the font is 0. -/
theorem resetByte_outside (c : Config) (a : Nat) (h : a < c.fontBase ∨ c.fontBase + 80 ≤ a) : resetByte c a = 0 := by
  unfold resetByte
  rw [dif_neg (by omega)]

/-- The reset image in the font region. -/
theorem resetByte_font (c : Config) (i : Nat) (h : i < 80) : resetByte c (c.fontBase + i) = c.fontData[i] := by
  unfold resetByte
  rw [dif_pos (by omega)]
  simp

end Sys2Proof.Machine
end

