-- ==== Sys2Proof/Laws/Ops.lean ====
section
/-! SUPPORT. What the shared operations do, said once: registers, memory, stack, block transfers, the loader. -/

namespace Sys2Proof.Machine

/-! ### Registers -/

/-- A register read after a register write. -/
theorem State.getV_setV (s : State) (x r : Reg) (b : Byte) :
    (s.setV x b).getV r = if r = x then b else s.getV r := by
  simp only [State.getV, State.setV_V, Fin.getElem_fin, Vector.getElem_set]
  by_cases h : r = x
  · simp [h]
  · rw [if_neg h, if_neg fun e => h (Fin.ext e.symm)]

@[simp] theorem State.getV_setI (s : State) (w : Word) (r : Reg) : (s.setI w).getV r = s.getV r := rfl
@[simp] theorem State.getV_setPc (s : State) (w : Word) (r : Reg) : (s.setPc w).getV r = s.getV r := rfl
@[simp] theorem State.getV_advance (s : State) (r : Reg) : s.advance.getV r = s.getV r := rfl
@[simp] theorem State.getV_setFb (s : State) (f : Framebuffer) (r : Reg) : (s.setFb f).getV r = s.getV r := rfl
@[simp] theorem State.getV_writeByte (s : State) (a : Word) (v : Byte) (r : Reg) :
    (s.writeByte a v).getV r = s.getV r := rfl
@[simp] theorem State.getV_usedRandom (s : State) (r : Reg) : s.usedRandom.getV r = s.getV r := rfl
@[simp] theorem State.getV_usedReady (s : State) (r : Reg) : s.usedReady.getV r = s.getV r := rfl

/-! ### Memory -/

/-- Two states with one configuration and one memory read the same byte everywhere. -/
theorem State.readByte_congr {s t : State} (hc : t.config = s.config) (hm : t.mem = s.mem) (a : Word) :
    t.readByte a = s.readByte a := by
  simp only [State.readByte, hc, hm]

@[simp] theorem State.readByte_setV (s : State) (x : Reg) (b : Byte) (a : Word) :
    (s.setV x b).readByte a = s.readByte a := rfl
@[simp] theorem State.readByte_setI (s : State) (w a : Word) : (s.setI w).readByte a = s.readByte a := rfl
@[simp] theorem State.readByte_setPc (s : State) (w a : Word) : (s.setPc w).readByte a = s.readByte a := rfl
@[simp] theorem State.readByte_advance (s : State) (a : Word) : s.advance.readByte a = s.readByte a := rfl
@[simp] theorem State.readByte_setFb (s : State) (f : Framebuffer) (a : Word) :
    (s.setFb f).readByte a = s.readByte a := rfl
@[simp] theorem State.readByte_usedReady (s : State) (a : Word) : s.usedReady.readByte a = s.readByte a := rfl

/-- What a read of one byte gives after a write of one byte, in a memory of canonical form (20_memory.md R62, R63). -/
theorem State.readByte_writeByte (s : State) (a b : Word) (v : Byte) (h : Memory.wf s.config s.mem = true) :
    (s.writeByte a v).readByte b = if memIndex b = memIndex a then v else s.readByte b :=
  Memory.lookup_store s.config (memIndex a) v s.mem (memIndex b) h

/-- A write of one byte keeps the canonical form. -/
theorem State.writeByte_wf (s : State) (a : Word) (v : Byte) (h : Memory.wf s.config s.mem = true) :
    Memory.wf (s.writeByte a v).config (s.writeByte a v).mem = true :=
  Memory.store_wf s.config (memIndex a) v s.mem (memIndex_lt a) h

/-- A state whose memory is replaced: what every sequence of byte writes gives. -/
def State.withMem (s : State) (m : Memory) : State := { s with mem := m }

/-- A sequence of byte writes changes the memory alone. -/
theorem State.writeBytes_eq (bs : List Byte) : ∀ (s : State) (a : Word),
    s.writeBytes a bs = s.withMem (s.writeBytes a bs).mem := by
  induction bs with
  | nil => intro s a; rfl
  | cons b bs ih =>
    intro s a
    simp only [State.writeBytes]
    rw [ih (s.writeByte a b) (a + 1)]
    rfl

@[simp] theorem State.writeBytes_config (bs : List Byte) (s : State) (a : Word) :
    (s.writeBytes a bs).config = s.config := by rw [State.writeBytes_eq]; rfl

/-- A sequence of byte writes keeps the canonical form. -/
theorem State.writeBytes_wf (bs : List Byte) : ∀ (s : State) (a : Word), Memory.wf s.config s.mem = true →
    Memory.wf (s.writeBytes a bs).config (s.writeBytes a bs).mem = true := by
  induction bs with
  | nil => intro s a h; exact h
  | cons b bs ih => intro s a h; exact ih _ _ (s.writeByte_wf a b h)

/-! ### Stack -/

/-- Everything that a push can do (10_state.md R34). -/
theorem State.push_cases (s : State) (v : Word) :
    (s.sp.val = 16 ∧ s.push v = none) ∨
    ∃ h : s.sp.val < 16, s.push v =
      some { s with stack := s.stack.set s.sp.val v h, sp := ⟨s.sp.val + 1, by omega⟩ } := by
  unfold State.push
  split
  · next h => exact .inl ⟨h, rfl⟩
  · exact .inr ⟨by omega, rfl⟩

/-- Everything that a pop can do (10_state.md R35). -/
theorem State.pop_cases (s : State) :
    (s.sp.val = 0 ∧ s.pop = none) ∨
    ∃ h : 0 < s.sp.val, s.pop =
      some (s.stack[s.sp.val - 1]'(by omega), { s with sp := ⟨s.sp.val - 1, by omega⟩ }) := by
  unfold State.pop
  split
  · next h => exact .inl ⟨h, rfl⟩
  · exact .inr ⟨by omega, rfl⟩

/-! ### Block transfers -/

/-- The store loop changes the memory alone (42_index_memory.md R175). -/
theorem storeRegs_eq (base : Word) (s : State) (n : Nat) :
    storeRegs base s n = s.withMem (storeRegs base s n).mem := by
  induction n with
  | zero => rfl
  | succ n ih =>
    simp only [storeRegs]
    rw [ih]
    rfl

/-- The store loop keeps the canonical form. -/
theorem storeRegs_wf (base : Word) (s : State) (n : Nat) (h : Memory.wf s.config s.mem = true) :
    Memory.wf s.config (storeRegs base s n).mem = true := by
  induction n with
  | zero => exact h
  | succ n ih =>
    have hc : (storeRegs base s n).config = s.config := by rw [storeRegs_eq]; rfl
    have := (storeRegs base s n).writeByte_wf (dataAddr base n) (s.getV (Fin.ofNat 16 n)) (by rw [hc]; exact ih)
    simpa [storeRegs, hc] using this

/-- One turn of the store loop as a read sees it. -/
theorem storeRegs_readByte_succ (base : Word) (s : State) (n : Nat) (a : Word)
    (h : Memory.wf s.config s.mem = true) :
    (storeRegs base s (n + 1)).readByte a =
      if memIndex a = memIndex (dataAddr base n) then s.getV (Fin.ofNat 16 n) else (storeRegs base s n).readByte a := by
  have hc : (storeRegs base s n).config = s.config := by rw [storeRegs_eq]; rfl
  exact (storeRegs base s n).readByte_writeByte _ _ _ (by rw [hc]; exact storeRegs_wf base s n h)

/-- A state whose registers are replaced: what every sequence of register writes gives. -/
def State.withV (s : State) (v : Vector Byte 16) : State := { s with V := v }

/-- The load loop changes the registers alone (42_index_memory.md R176). -/
theorem loadRegs_eq (base : Word) (s : State) (n : Nat) :
    loadRegs base s n = s.withV (loadRegs base s n).V := by
  induction n with
  | zero => rfl
  | succ n ih =>
    simp only [loadRegs]
    rw [ih]
    rfl

/-- What the load loop leaves in each register. -/
theorem loadRegs_getV (base : Word) (s : State) (n : Nat) (hn : n ≤ 16) (r : Reg) :
    (loadRegs base s n).getV r = if r.val < n then s.readByte (dataAddr base r.val) else s.getV r := by
  induction n with
  | zero => simp [loadRegs]
  | succ n ih =>
    have hv : (Fin.ofNat 16 n).val = n := Nat.mod_eq_of_lt (by omega)
    simp only [loadRegs, State.getV_setV, ih (by omega)]
    by_cases h : r = Fin.ofNat 16 n
    · rw [if_pos h, if_pos (by rw [h, hv]; omega), h, hv]
    · have : r.val ≠ n := fun e => h (Fin.ext (by rw [hv, e]))
      rw [if_neg h]
      by_cases h' : r.val < n
      · rw [if_pos h', if_pos (by omega)]
      · rw [if_neg h', if_neg (by omega)]

/-! ### Timers -/

/-- One decrement, floored at 0 (50_host_interface.md R236). -/
theorem decay_toNat (t : Byte) : (decay t).toNat = t.toNat - 1 := by
  unfold decay
  split
  · next h => simp [h]
  · next h =>
    have : t.toNat ≠ 0 := fun e => h (BitVec.eq_of_toNat_eq e)
    have ht := t.isLt
    rw [BitVec.toNat_sub]
    simp
    omega

end Sys2Proof.Machine
end

