-- ==== Sys2Proof/Laws/Flags.lean ====
section
/-! SUPPORT. What the combined writes of a result and a flag leave in each register (41_alu.md R142). -/

namespace Sys2Proof.Machine

/-- Result first, flag last: with `x = 15` VF ends as the flag. -/
theorem writeResultThenFlag_getV (s : State) (x r : Reg) (a f : Byte) :
    (writeResultThenFlag s x a f).getV r = if r = VF then f else if r = x then a else s.getV r := by
  simp only [writeResultThenFlag, State.getV_setV]

/-- Flag first, result last: with `x = 15` VF ends as the result. -/
theorem writeFlagThenResult_getV (s : State) (x r : Reg) (f a : Byte) :
    (writeFlagThenResult s x f a).getV r = if r = x then a else if r = VF then f else s.getV r := by
  simp only [writeFlagThenResult, State.getV_setV]

/-- The logic instructions: VF ends 0 exactly under VF_RESET. -/
theorem writeLogic_getV (s : State) (x r : Reg) (a : Byte) :
    (writeLogic s x a).getV r =
      if s.config.vfReset = true ∧ r = VF then 0 else if r = x then a else s.getV r := by
  unfold writeLogic
  split
  · next h => simp only [writeResultThenFlag_getV, h, true_and]
  · next h => simp only [State.getV_setV, h, Bool.false_eq_true, false_and, if_false]

/-- The three writes change registers alone. -/
theorem writeResultThenFlag_eq (s : State) (x : Reg) (a f : Byte) :
    writeResultThenFlag s x a f = s.withV (writeResultThenFlag s x a f).V := rfl

theorem writeFlagThenResult_eq (s : State) (x : Reg) (f a : Byte) :
    writeFlagThenResult s x f a = s.withV (writeFlagThenResult s x f a).V := rfl

theorem writeLogic_eq (s : State) (x : Reg) (a : Byte) : writeLogic s x a = s.withV (writeLogic s x a).V := by
  unfold writeLogic
  split <;> rfl

end Sys2Proof.Machine
end

