-- ==== Sys2Proof/Laws/Frames.lean ====
section
/-! SUPPORT. How frames combine, and the frame of each update. -/

namespace Sys2Proof.Machine

theorem Unchanged.refl (p : StatePart) (s : State) : Unchanged p s s := by
  cases p <;> simp [Unchanged]

theorem Unchanged.trans {p : StatePart} {s t u : State} (h : Unchanged p s t) (h' : Unchanged p t u) :
    Unchanged p s u := by
  cases p <;> simp_all [Unchanged]

theorem OnlyChanges.refl (ps : List StatePart) (s : State) : OnlyChanges ps s s := fun p _ => Unchanged.refl p s

theorem OnlyChanges.trans {ps : List StatePart} {s t u : State} (h : OnlyChanges ps s t) (h' : OnlyChanges ps t u) :
    OnlyChanges ps s u := fun p hp => (h p hp).trans (h' p hp)

/-- A frame that lists more is weaker. -/
theorem OnlyChanges.mono {ps qs : List StatePart} {s t : State} (h : OnlyChanges ps s t) (hs : ps ⊆ qs) :
    OnlyChanges qs s t := fun p hp => h p fun hm => hp (hs hm)

theorem onlyChanges_withV (s : State) (v : Vector Byte 16) : OnlyChanges [.regs] s (s.withV v) := by
  intro p hp
  cases p <;> first
    | exact rfl | exact fun _ => rfl | exact fun _ _ => rfl | exact ⟨rfl, fun _ => rfl⟩ | exact ⟨rfl, rfl⟩
    | exact ⟨rfl, rfl, rfl⟩ | exact absurd (List.mem_singleton.mpr rfl) hp

theorem onlyChanges_withMem (s : State) (m : Memory) : OnlyChanges [.memory] s (s.withMem m) := by
  intro p hp
  cases p <;> first
    | exact rfl | exact fun _ => rfl | exact fun _ _ => rfl | exact ⟨rfl, fun _ => rfl⟩ | exact ⟨rfl, rfl⟩
    | exact ⟨rfl, rfl, rfl⟩ | exact absurd (List.mem_singleton.mpr rfl) hp

theorem onlyChanges_setI (s : State) (w : Word) : OnlyChanges [.index] s (s.setI w) := by
  intro p hp
  cases p <;> first
    | exact rfl | exact fun _ => rfl | exact fun _ _ => rfl | exact ⟨rfl, fun _ => rfl⟩ | exact ⟨rfl, rfl⟩
    | exact ⟨rfl, rfl, rfl⟩ | exact absurd (List.mem_singleton.mpr rfl) hp

theorem onlyChanges_setPc (s : State) (w : Word) : OnlyChanges [.pc] s (s.setPc w) := by
  intro p hp
  cases p <;> first
    | exact rfl | exact fun _ => rfl | exact fun _ _ => rfl | exact ⟨rfl, fun _ => rfl⟩ | exact ⟨rfl, rfl⟩
    | exact ⟨rfl, rfl, rfl⟩ | exact absurd (List.mem_singleton.mpr rfl) hp

theorem onlyChanges_setDT (s : State) (b : Byte) : OnlyChanges [.delay] s (s.setDT b) := by
  intro p hp
  cases p <;> first
    | exact rfl | exact fun _ => rfl | exact fun _ _ => rfl | exact ⟨rfl, fun _ => rfl⟩ | exact ⟨rfl, rfl⟩
    | exact ⟨rfl, rfl, rfl⟩ | exact absurd (List.mem_singleton.mpr rfl) hp

theorem onlyChanges_setST (s : State) (b : Byte) : OnlyChanges [.sound] s (s.setST b) := by
  intro p hp
  cases p <;> first
    | exact rfl | exact fun _ => rfl | exact fun _ _ => rfl | exact ⟨rfl, fun _ => rfl⟩ | exact ⟨rfl, rfl⟩
    | exact ⟨rfl, rfl, rfl⟩ | exact absurd (List.mem_singleton.mpr rfl) hp

theorem onlyChanges_setFb (s : State) (f : Framebuffer) : OnlyChanges [.screen] s (s.setFb f) := by
  intro p hp
  cases p <;> first
    | exact rfl | exact fun _ => rfl | exact fun _ _ => rfl | exact ⟨rfl, fun _ => rfl⟩ | exact ⟨rfl, rfl⟩
    | exact ⟨rfl, rfl, rfl⟩ | exact absurd (List.mem_singleton.mpr rfl) hp

theorem onlyChanges_setKey (s : State) (k : Key) (b : Bool) : OnlyChanges [.keys] s (s.setKey k b) := by
  intro p hp
  cases p <;> first
    | exact rfl | exact fun _ => rfl | exact fun _ _ => rfl | exact ⟨rfl, fun _ => rfl⟩ | exact ⟨rfl, rfl⟩
    | exact ⟨rfl, rfl, rfl⟩ | exact absurd (List.mem_singleton.mpr rfl) hp

theorem onlyChanges_setWait (s : State) (w : Bool) (r : Option Key) : OnlyChanges [.waitSlot] s (s.setWait w r) := by
  intro p hp
  cases p <;> first
    | exact rfl | exact fun _ => rfl | exact fun _ _ => rfl | exact ⟨rfl, fun _ => rfl⟩ | exact ⟨rfl, rfl⟩
    | exact ⟨rfl, rfl, rfl⟩ | exact absurd (List.mem_singleton.mpr rfl) hp

theorem onlyChanges_usedRandom (s : State) : OnlyChanges [.randDraws] s s.usedRandom := by
  intro p hp
  cases p <;> first
    | exact rfl | exact fun _ => rfl | exact fun _ _ => rfl | exact ⟨rfl, fun _ => rfl⟩ | exact ⟨rfl, rfl⟩
    | exact ⟨rfl, rfl, rfl⟩ | exact absurd (List.mem_singleton.mpr rfl) hp

theorem onlyChanges_usedReady (s : State) : OnlyChanges [.readyDraws] s s.usedReady := by
  intro p hp
  cases p <;> first
    | exact rfl | exact fun _ => rfl | exact fun _ _ => rfl | exact ⟨rfl, fun _ => rfl⟩ | exact ⟨rfl, rfl⟩
    | exact ⟨rfl, rfl, rfl⟩ | exact absurd (List.mem_singleton.mpr rfl) hp

theorem onlyChanges_raiseFatal (s : State) (c : FaultCode) (op : Word) :
    OnlyChanges [.latch] s (s.raiseFatal c op) := by
  intro p hp
  cases p <;> first
    | exact rfl | exact fun _ => rfl | exact fun _ _ => rfl | exact ⟨rfl, fun _ => rfl⟩ | exact ⟨rfl, rfl⟩
    | exact ⟨rfl, rfl, rfl⟩ | exact absurd (List.mem_singleton.mpr rfl) hp

end Sys2Proof.Machine
end

