-- ==== Sys2Proof/Laws/PerInstr.lean ====
section
/-! SUPPORT. One fact for each instruction as syntax: its row stands in the table of 30_encoding.md R100 and its encoding matches
that row's mask and match. -/

namespace Sys2Proof.Laws.EncodingRow

/-- The row of `i` is one of R100's, and `encode i & mask = match` for it. -/
def Statement (i : Instr) : Prop := opcodeRow i ∈ opcodeTable ∧ rowCovers (opcodeRow i) (encode i) = true

theorem cls : Statement .cls := by unfold Statement; decide
theorem ret : Statement .ret := by unfold Statement; decide
theorem jp (nnn : Addr) : Statement (.jp nnn) :=
  ⟨by simp only [opcodeRow]; decide, by
    simp only [rowCovers, opcodeRow, encode, and_familyMask, opFamily_packNNN]
    decide⟩
theorem call (nnn : Addr) : Statement (.call nnn) :=
  ⟨by simp only [opcodeRow]; decide, by
    simp only [rowCovers, opcodeRow, encode, and_familyMask, opFamily_packNNN]
    decide⟩
theorem seImm (x : Reg) (nn : Byte) : Statement (.seImm x nn) :=
  ⟨by simp only [opcodeRow]; decide, by
    simp only [rowCovers, opcodeRow, encode, and_familyMask, opFamily_packXNN]
    decide⟩
theorem sneImm (x : Reg) (nn : Byte) : Statement (.sneImm x nn) :=
  ⟨by simp only [opcodeRow]; decide, by
    simp only [rowCovers, opcodeRow, encode, and_familyMask, opFamily_packXNN]
    decide⟩
theorem seReg (x y : Reg) : Statement (.seReg x y) :=
  ⟨by simp only [opcodeRow]; decide, by
    simp only [rowCovers, opcodeRow, encode, and_subMask, opFamily_packXYN, opLow_packXYN]
    decide⟩
theorem ldImm (x : Reg) (nn : Byte) : Statement (.ldImm x nn) :=
  ⟨by simp only [opcodeRow]; decide, by
    simp only [rowCovers, opcodeRow, encode, and_familyMask, opFamily_packXNN]
    decide⟩
theorem addImm (x : Reg) (nn : Byte) : Statement (.addImm x nn) :=
  ⟨by simp only [opcodeRow]; decide, by
    simp only [rowCovers, opcodeRow, encode, and_familyMask, opFamily_packXNN]
    decide⟩
theorem ldReg (x y : Reg) : Statement (.ldReg x y) :=
  ⟨by simp only [opcodeRow]; decide, by
    simp only [rowCovers, opcodeRow, encode, and_subMask, opFamily_packXYN, opLow_packXYN]
    decide⟩
theorem orReg (x y : Reg) : Statement (.orReg x y) :=
  ⟨by simp only [opcodeRow]; decide, by
    simp only [rowCovers, opcodeRow, encode, and_subMask, opFamily_packXYN, opLow_packXYN]
    decide⟩
theorem andReg (x y : Reg) : Statement (.andReg x y) :=
  ⟨by simp only [opcodeRow]; decide, by
    simp only [rowCovers, opcodeRow, encode, and_subMask, opFamily_packXYN, opLow_packXYN]
    decide⟩
theorem xorReg (x y : Reg) : Statement (.xorReg x y) :=
  ⟨by simp only [opcodeRow]; decide, by
    simp only [rowCovers, opcodeRow, encode, and_subMask, opFamily_packXYN, opLow_packXYN]
    decide⟩
theorem addReg (x y : Reg) : Statement (.addReg x y) :=
  ⟨by simp only [opcodeRow]; decide, by
    simp only [rowCovers, opcodeRow, encode, and_subMask, opFamily_packXYN, opLow_packXYN]
    decide⟩
theorem sub (x y : Reg) : Statement (.sub x y) :=
  ⟨by simp only [opcodeRow]; decide, by
    simp only [rowCovers, opcodeRow, encode, and_subMask, opFamily_packXYN, opLow_packXYN]
    decide⟩
theorem shr (x y : Reg) : Statement (.shr x y) :=
  ⟨by simp only [opcodeRow]; decide, by
    simp only [rowCovers, opcodeRow, encode, and_subMask, opFamily_packXYN, opLow_packXYN]
    decide⟩
theorem subn (x y : Reg) : Statement (.subn x y) :=
  ⟨by simp only [opcodeRow]; decide, by
    simp only [rowCovers, opcodeRow, encode, and_subMask, opFamily_packXYN, opLow_packXYN]
    decide⟩
theorem shl (x y : Reg) : Statement (.shl x y) :=
  ⟨by simp only [opcodeRow]; decide, by
    simp only [rowCovers, opcodeRow, encode, and_subMask, opFamily_packXYN, opLow_packXYN]
    decide⟩
theorem sneReg (x y : Reg) : Statement (.sneReg x y) :=
  ⟨by simp only [opcodeRow]; decide, by
    simp only [rowCovers, opcodeRow, encode, and_subMask, opFamily_packXYN, opLow_packXYN]
    decide⟩
theorem ldI (nnn : Addr) : Statement (.ldI nnn) :=
  ⟨by simp only [opcodeRow]; decide, by
    simp only [rowCovers, opcodeRow, encode, and_familyMask, opFamily_packNNN]
    decide⟩
theorem jpOff (nnn : Addr) : Statement (.jpOff nnn) :=
  ⟨by simp only [opcodeRow]; decide, by
    simp only [rowCovers, opcodeRow, encode, and_familyMask, opFamily_packNNN]
    decide⟩
theorem rnd (x : Reg) (nn : Byte) : Statement (.rnd x nn) :=
  ⟨by simp only [opcodeRow]; decide, by
    simp only [rowCovers, opcodeRow, encode, and_familyMask, opFamily_packXNN]
    decide⟩
theorem drw (x y : Reg) (n : Fin 16) : Statement (.drw x y n) :=
  ⟨by simp only [opcodeRow]; decide, by
    simp only [rowCovers, opcodeRow, encode, and_familyMask, opFamily_packXYN]
    decide⟩
theorem skp (x : Reg) : Statement (.skp x) :=
  ⟨by simp only [opcodeRow]; decide, by
    simp only [rowCovers, opcodeRow, encode, and_lowByteMask, opFamily_packXNN, opNN_packXNN]
    decide⟩
theorem sknp (x : Reg) : Statement (.sknp x) :=
  ⟨by simp only [opcodeRow]; decide, by
    simp only [rowCovers, opcodeRow, encode, and_lowByteMask, opFamily_packXNN, opNN_packXNN]
    decide⟩
theorem ldVxDt (x : Reg) : Statement (.ldVxDt x) :=
  ⟨by simp only [opcodeRow]; decide, by
    simp only [rowCovers, opcodeRow, encode, and_lowByteMask, opFamily_packXNN, opNN_packXNN]
    decide⟩
theorem ldVxK (x : Reg) : Statement (.ldVxK x) :=
  ⟨by simp only [opcodeRow]; decide, by
    simp only [rowCovers, opcodeRow, encode, and_lowByteMask, opFamily_packXNN, opNN_packXNN]
    decide⟩
theorem ldDtVx (x : Reg) : Statement (.ldDtVx x) :=
  ⟨by simp only [opcodeRow]; decide, by
    simp only [rowCovers, opcodeRow, encode, and_lowByteMask, opFamily_packXNN, opNN_packXNN]
    decide⟩
theorem ldStVx (x : Reg) : Statement (.ldStVx x) :=
  ⟨by simp only [opcodeRow]; decide, by
    simp only [rowCovers, opcodeRow, encode, and_lowByteMask, opFamily_packXNN, opNN_packXNN]
    decide⟩
theorem addI (x : Reg) : Statement (.addI x) :=
  ⟨by simp only [opcodeRow]; decide, by
    simp only [rowCovers, opcodeRow, encode, and_lowByteMask, opFamily_packXNN, opNN_packXNN]
    decide⟩
theorem ldF (x : Reg) : Statement (.ldF x) :=
  ⟨by simp only [opcodeRow]; decide, by
    simp only [rowCovers, opcodeRow, encode, and_lowByteMask, opFamily_packXNN, opNN_packXNN]
    decide⟩
theorem ldB (x : Reg) : Statement (.ldB x) :=
  ⟨by simp only [opcodeRow]; decide, by
    simp only [rowCovers, opcodeRow, encode, and_lowByteMask, opFamily_packXNN, opNN_packXNN]
    decide⟩
theorem stRegs (x : Reg) : Statement (.stRegs x) :=
  ⟨by simp only [opcodeRow]; decide, by
    simp only [rowCovers, opcodeRow, encode, and_lowByteMask, opFamily_packXNN, opNN_packXNN]
    decide⟩
theorem ldRegs (x : Reg) : Statement (.ldRegs x) :=
  ⟨by simp only [opcodeRow]; decide, by
    simp only [rowCovers, opcodeRow, encode, and_lowByteMask, opFamily_packXNN, opNN_packXNN]
    decide⟩

end Sys2Proof.Laws.EncodingRow
end

