-- ==== Sys2Proof/Tests/Slice0.lean ====
section
/-! SUPPORT. Tests, and one witness for each obligation that has hypotheses. Expected values are those of
spec/95_test_vectors.md (T…, X…, P…), or worked out by hand from the rule that a docstring names. -/

namespace Sys2Proof.Machine

/-- The opcode placed at 0x200 in the reset state, then the named changes. -/
def startAt (op : Word) (f : State → State) : State := f (placeOp State.reset op)

/-- Another setting of the quirk toggles. -/
def withQuirks (f : Config → Config) (s : State) : State := { s with config := f s.config }

/-- A state with two sprite bytes at 0x300 and the sprite's origin in V0, V1. -/
def spriteState (b0 b1 : Byte) (col row : Byte) : State :=
  ((((State.reset.writeByte 0x300 b0).writeByte 0x301 b1).setI 0x300).setV 0 col).setV 1 row

/-! ### Well-formedness: an ill-formed term for each check -/

/-- 00_scope.md R7: FONT_BASE = 432 is the last legal one. -/
theorem test_wf_config_accepts : ({ resetConfig with fontBase := 432 } : Config).wf = true := by decide
theorem test_wf_config_refuses : ({ resetConfig with fontBase := 433 } : Config).wf = false := by decide
/-- 20_memory.md R68: 3584 bytes are the most. -/
theorem test_wf_program_accepts : programFits (List.replicate 3584 0xAA) = true := by
  unfold programFits
  rw [List.length_replicate]
  decide
theorem test_wf_program_refuses : programFits (List.replicate 3585 0xBB) = false := by
  unfold programFits
  rw [List.length_replicate]
  decide
/-- Canonical memory: out of range, an entry that reads as unlisted (font byte 0xF0 at 0x050), not rising. -/
theorem test_wf_memory_accepts : Memory.wf resetConfig [(0x050, 0x00), (0x200, 0x12)] = true := by decide
theorem test_wf_memory_refuses :
    Memory.wf resetConfig [(4096, 1)] = false ∧ Memory.wf resetConfig [(0x050, 0xF0)] = false ∧
    Memory.wf resetConfig [(0x201, 1), (0x200, 1)] = false := by decide

/-! ### Decoding: a word written out from the encoding of each row (30_encoding.md R100) -/

theorem test_decode_cls : decode 0x00E0 = some .cls := by decide
theorem test_decode_ret : decode 0x00EE = some .ret := by decide
theorem test_decode_jp : decode 0x1ABC = some (.jp 0xABC) := by decide
theorem test_decode_call : decode 0x2ABC = some (.call 0xABC) := by decide
theorem test_decode_seImm : decode 0x3542 = some (.seImm 5 0x42) := by decide
theorem test_decode_sneImm : decode 0x4543 = some (.sneImm 5 0x43) := by decide
theorem test_decode_seReg : decode 0x5120 = some (.seReg 1 2) := by decide
theorem test_decode_ldImm : decode 0x6A2F = some (.ldImm 10 0x2F) := by decide
theorem test_decode_addImm : decode 0x7302 = some (.addImm 3 0x02) := by decide
theorem test_decode_ldReg : decode 0x8120 = some (.ldReg 1 2) := by decide
theorem test_decode_or : decode 0x8121 = some (.orReg 1 2) := by decide
theorem test_decode_and : decode 0x8122 = some (.andReg 1 2) := by decide
theorem test_decode_xor : decode 0x8123 = some (.xorReg 1 2) := by decide
theorem test_decode_addReg : decode 0x8124 = some (.addReg 1 2) := by decide
theorem test_decode_sub : decode 0x8125 = some (.sub 1 2) := by decide
theorem test_decode_shr : decode 0x8126 = some (.shr 1 2) := by decide
theorem test_decode_subn : decode 0x8127 = some (.subn 1 2) := by decide
theorem test_decode_shl : decode 0x812E = some (.shl 1 2) := by decide
theorem test_decode_sneReg : decode 0x9120 = some (.sneReg 1 2) := by decide
theorem test_decode_ldI : decode 0xA300 = some (.ldI 0x300) := by decide
theorem test_decode_jpOff : decode 0xB210 = some (.jpOff 0x210) := by decide
theorem test_decode_rnd : decode 0xC30F = some (.rnd 3 0x0F) := by decide
theorem test_decode_drw : decode 0xD125 = some (.drw 1 2 5) := by decide
theorem test_decode_skp : decode 0xE49E = some (.skp 4) := by decide
theorem test_decode_sknp : decode 0xE4A1 = some (.sknp 4) := by decide
theorem test_decode_ldVxDt : decode 0xF107 = some (.ldVxDt 1) := by decide
theorem test_decode_ldVxK : decode 0xF30A = some (.ldVxK 3) := by decide
theorem test_decode_ldDtVx : decode 0xF015 = some (.ldDtVx 0) := by decide
theorem test_decode_ldStVx : decode 0xF218 = some (.ldStVx 2) := by decide
theorem test_decode_addI : decode 0xF21E = some (.addI 2) := by decide
theorem test_decode_ldF : decode 0xFA29 = some (.ldF 10) := by decide
theorem test_decode_ldB : decode 0xF433 = some (.ldB 4) := by decide
theorem test_decode_stRegs : decode 0xF155 = some (.stRegs 1) := by decide
theorem test_decode_ldRegs : decode 0xF265 = some (.ldRegs 2) := by decide

/-- Illegal opcodes T5 to T10, and one of each other illegal kind of 30_encoding.md R105. -/
theorem test_decode_illegal :
    decode 0x0000 = none ∧ decode 0x00E1 = none ∧ decode 0x01E0 = none ∧ decode 0x5121 = none ∧ decode 0x8128 = none ∧
    decode 0x812F = none ∧ decode 0x912F = none ∧ decode 0xE19F = none ∧ decode 0xF000 = none := by decide

/-- The first byte is the more significant (R90); what follows an instruction is kept; rejects are named. -/
theorem test_decodeBytes :
    (match decodeBytes [0x12, 0x34, 0x56] with | .ok r => r = (.jp 0x234, [0x56]) | .error _ => False) ∧
    (match decodeBytes [0x12] with | .ok _ => False | .error e => e = .truncated) ∧
    (match decodeBytes [0x51, 0x21] with | .ok _ => False | .error e => e = .unknownInstruction 0x5121) :=
  ⟨rfl, rfl, rfl⟩

/-- The words of three encodings, written out from 30_encoding.md R92. -/
theorem test_encode : encode (.drw 1 2 5) = 0xD125 ∧ encode (.shl 1 2) = 0x812E ∧ encode (.ldF 10) = 0xFA29 := by decide

/-! ### Fetch and fatal conditions (part 2.1) -/

/-- T1: big-endian assembly. -/
theorem test_fetch_T1 : (cycle (startAt 0x1234 id)).pc = 0x0234 := by decide
/-- T3: a fetch across the 4096 wrap, pc modulo 65536. -/
theorem test_fetch_T3 :
    (cycle (((State.reset.writeByte 0xFFF 0x6A).writeByte 0 0x11).setPc 0xFFFF)).getV 10 = 0x11 ∧
    (cycle (((State.reset.writeByte 0xFFF 0x6A).writeByte 0 0x11).setPc 0xFFFF)).pc = 0x0001 := by decide
/-- T4: nothing loaded. -/
theorem test_fatal_T4 : cycle State.reset =
    { State.reset with pc := 0x0202, halted := true, faultCode := .unknownInstruction, faultOp := 0x0000 } := by decide
/-- T11: a second cycle changes nothing and fails again. -/
theorem test_fatal_T11 : (cycle (cycle State.reset)).pc = 0x0202 ∧
    cycleOutcome (cycle (cycle State.reset)) = .failed .unknownInstruction := by decide

/-! ### Control transfer (part 2.2) -/

/-- T20. -/
theorem test_jp_T20 : (cycle (startAt 0x1ABC id)).pc = 0x0ABC := by decide
/-- T23. -/
theorem test_call_T23 : (cycle (startAt 0x2ABC id)).stack[0] = 0x0202 ∧ (cycle (startAt 0x2ABC id)).sp.val = 1 ∧
    (cycle (startAt 0x2ABC id)).pc = 0x0ABC := by decide
/-- T25. -/
theorem test_call_T25 : faultReadout (cycle (startAt 0x2400 fun s => { s with sp := 16 })) = (true, .stackOverflow, 0x2400) ∧
    (cycle (startAt 0x2400 fun s => { s with sp := 16 })).pc = 0x0202 := by decide
/-- T26. -/
theorem test_ret_T26 : (cycle (startAt 0x00EE fun s => { s with sp := 1, stack := s.stack.set 0 0x0ABC })).pc = 0x0ABC ∧
    (cycle (startAt 0x00EE fun s => { s with sp := 1, stack := s.stack.set 0 0x0ABC })).stack[0] = 0x0ABC := by decide
/-- T27. -/
theorem test_ret_T27 : faultReadout (cycle (startAt 0x00EE id)) = (true, .stackUnderflow, 0x00EE) := by decide
/-- T28, T29. -/
theorem test_seImm_T28 : (cycle (startAt 0x3542 (·.setV 5 0x42))).pc = 0x0204 := by decide
theorem test_seImm_T29 : (cycle (startAt 0x3543 (·.setV 5 0x42))).pc = 0x0202 := by decide
/-- T30, T31. -/
theorem test_sneImm_T30 : (cycle (startAt 0x4543 (·.setV 5 0x42))).pc = 0x0204 := by decide
theorem test_sneImm_T31 : (cycle (startAt 0x4542 (·.setV 5 0x42))).pc = 0x0202 := by decide
/-- T32, T33. -/
theorem test_seReg_T32 : (cycle (startAt 0x5120 fun s => (s.setV 1 9).setV 2 9)).pc = 0x0204 := by decide
theorem test_seReg_T33 : (cycle (startAt 0x5120 fun s => (s.setV 1 9).setV 2 8)).pc = 0x0202 := by decide
/-- T35, T36. -/
theorem test_sneReg_T35 : (cycle (startAt 0x9120 fun s => (s.setV 1 9).setV 2 8)).pc = 0x0204 := by decide
theorem test_sneReg_T36 : (cycle (startAt 0x9770 id)).pc = 0x0202 := by decide
/-- T38, and T39 under BNNN. -/
theorem test_jpOff_T38 : (cycle (startAt 0xB210 fun s => (s.setV 0 0x04).setV 2 0x10)).pc = 0x0220 := by decide
theorem test_jpOff_T39 :
    (cycle (startAt 0xBFFF fun s => (withQuirks (fun c => { c with bnnn := true }) s).setV 0 0xFF)).pc = 0x10FE := by decide

/-! ### Registers and ALU (part 2.3) -/

/-- T50. -/
theorem test_ldImm_T50 : (cycle (startAt 0x6A2F id)).getV 10 = 0x2F := by decide
/-- X1. -/
theorem test_addImm_X1 : (cycle (startAt 0x7302 fun s => (s.setV 3 0xFF).setV VF 0x5A)).getV 3 = 0x01 ∧
    (cycle (startAt 0x7302 fun s => (s.setV 3 0xFF).setV VF 0x5A)).getV VF = 0x5A := by decide
/-- T54. -/
theorem test_ldReg_T54 : (cycle (startAt 0x8120 (·.setV 2 0x5A))).getV 1 = 0x5A := by decide
/-- T59, T60. -/
theorem test_or_T59 : (cycle (startAt 0x8F11 fun s =>
    ((withQuirks (fun c => { c with vfReset := true }) s).setV 1 0xF0).setV VF 0x0F)).getV VF = 0x00 := by decide
theorem test_or_T60 : (cycle (startAt 0x8F11 fun s => (s.setV 1 0xF0).setV VF 0x0F)).getV VF = 0xFF := by decide
/-- T57. -/
theorem test_and_T57 : (cycle (startAt 0x8122 fun s => (s.setV 1 0xF3).setV 2 0x3F)).getV 1 = 0x33 := by decide
/-- T58. -/
theorem test_xor_T58 : (cycle (startAt 0x8123 fun s => (s.setV 1 0xFF).setV 2 0x0F)).getV 1 = 0xF0 := by decide
/-- T62: the carry, the sum is lost; T63: the old VF is the addend. -/
theorem test_addReg_T62 : (cycle (startAt 0x8F14 fun s => (s.setV VF 0x80).setV 1 0x80)).getV VF = 0x01 := by decide
theorem test_addReg_T63 : (cycle (startAt 0x81F4 fun s => (s.setV 1 0x10).setV VF 0x01)).getV 1 = 0x11 ∧
    (cycle (startAt 0x81F4 fun s => (s.setV 1 0x10).setV VF 0x01)).getV VF = 0x00 := by decide
/-- X5; T64: equal operands do not borrow. -/
theorem test_sub_X5 : (cycle (startAt 0x8125 fun s => ((s.setV 1 3).setV 2 5).setV VF 1)).getV 1 = 0xFE ∧
    (cycle (startAt 0x8125 fun s => ((s.setV 1 3).setV 2 5).setV VF 1)).getV VF = 0 := by decide
theorem test_sub_T64 : (cycle (startAt 0x8335 (·.setV 3 0x80))).getV VF = 1 := by decide
/-- T70: with x = 15 the shifted value stays; T71: under SHIFT_USE_VY with y = 15 the old VF is the source. -/
theorem test_shr_T70 : (cycle (startAt 0x8F16 (·.setV VF 0x05))).getV VF = 0x02 := by decide
theorem test_shr_T71 : (cycle (startAt 0x82F6 fun s =>
    ((withQuirks (fun c => { c with shiftUseVy := true }) s).setV VF 0x03).setV 2 0x08)).getV 2 = 0x01 := by decide
/-- T67, T68. -/
theorem test_subn_T67 : (cycle (startAt 0x8127 fun s => (s.setV 1 3).setV 2 5)).getV 1 = 0x02 ∧
    (cycle (startAt 0x8127 fun s => (s.setV 1 3).setV 2 5)).getV VF = 1 := by decide
theorem test_subn_T68 : (cycle (startAt 0x8127 fun s => (s.setV 1 5).setV 2 3)).getV 1 = 0xFE := by decide
/-- T72, T74. -/
theorem test_shl_T72 : (cycle (startAt 0x812E fun s => (s.setV 1 0x81).setV 2 0x40)).getV 1 = 0x02 ∧
    (cycle (startAt 0x812E fun s => (s.setV 1 0x81).setV 2 0x40)).getV VF = 1 := by decide
theorem test_shl_T74 : (cycle (startAt 0x8F1E (·.setV VF 0x81))).getV VF = 0x02 := by decide
/-- T75: the draw is given. -/
theorem test_rnd_T75 : (randomWith 0xA7 3 0x0F State.reset).getV 3 = 0x07 ∧
    (randomWith 0xA7 3 0x0F State.reset).randDraws = 1 := by decide

/-! ### Index register, loads and stores (part 2.4) -/

/-- T80. -/
theorem test_ldI_T80 : (cycle (startAt 0xA300 id)).I = 0x0300 := by decide
/-- T82, T83. -/
theorem test_addI_T82 : (cycle (startAt 0xF11E fun s => (s.setI 0x0FFF).setV 1 2)).I = 0x1001 := by decide
theorem test_addI_T83 : (cycle (startAt 0xF11E fun s => (s.setI 0xFFFF).setV 1 1)).I = 0x0000 := by decide
/-- T84, T86. -/
theorem test_ldF_T84 : (cycle (startAt 0xF029 (·.setV 0 0x0A))).I = 0x0082 := by decide
theorem test_ldF_T86 : (cycle (startAt 0xF029 (·.setV 0 0xFF))).I = 0x054B := by decide
/-- T87. -/
theorem test_ldB_T87 : (cycle (startAt 0xF033 fun s => (s.setV 0 0xFE).setI 0x300)).readWord 0x300 = 0x0205 ∧
    (cycle (startAt 0xF033 fun s => (s.setV 0 0xFE).setI 0x300)).readByte 0x302 = 4 := by decide
/-- T90: masked across the top of memory. -/
theorem test_ldB_T90 : (cycle (startAt 0xF433 fun s => (s.setV 4 0xFF).setI 0xFFE)).readByte 0x000 = 5 := by decide
/-- T92. -/
theorem test_stRegs_T92 :
    (cycle (startAt 0xFF55 fun s => { withQuirks (fun c => { c with storeLoadIncrementsI := true }) s with
      V := Vector.ofFn fun i => BitVec.ofNat 8 (0xA0 + i.val), I := 0xFF8 })).readByte 0x007 = 0xAF ∧
    (cycle (startAt 0xFF55 fun s => { withQuirks (fun c => { c with storeLoadIncrementsI := true }) s with
      V := Vector.ofFn fun i => BitVec.ofNat 8 (0xA0 + i.val), I := 0xFF8 })).I = 0x1008 := by decide
/-- T96: a store into the font. -/
theorem test_stRegs_T96 : (cycle (startAt 0xF055 fun s => (s.setV 0 0xFF).setI 0x050)).readByte 0x050 = 0xFF := by decide
/-- T94. -/
theorem test_ldRegs_T94 :
    (cycle (startAt 0xF265 fun s => ((s.writeBytes 0x300 [2, 5, 4]).setI 0x300).setV 3 0x99)).getV 2 = 4 ∧
    (cycle (startAt 0xF265 fun s => ((s.writeBytes 0x300 [2, 5, 4]).setI 0x300).setV 3 0x99)).getV 3 = 0x99 := by decide
/-- T95: index 0x1FFE, increment under the quirk. -/
theorem test_ldRegs_T95 :
    (cycle (startAt 0xF265 fun s => (withQuirks (fun c => { c with storeLoadIncrementsI := true })
      (s.writeBytes 0xFFE [0x11, 0x22, 0x33])).setI 0x1FFE)).getV 2 = 0x33 ∧
    (cycle (startAt 0xF265 fun s => (withQuirks (fun c => { c with storeLoadIncrementsI := true })
      (s.writeBytes 0xFFE [0x11, 0x22, 0x33])).setI 0x1FFE)).I = 0x2001 := by decide

/-! ### Display (part 2.5) -/

/-- T100. -/
theorem test_cls_T100 :
    (cycle (startAt 0x00E0 fun s => (s.setV VF 9).setFb (flipCell s.fb 3 4))).pixel 3 4 = false ∧
    (cycle (startAt 0x00E0 fun s => (s.setV VF 9).setFb (flipCell s.fb 3 4))).getV VF = 9 := by decide
/-- T105 with the cell (31, 63) set before, by hand from R191, R194, R195: origin (63, 31), bit 0 clipped and not wrapped to column
6, the set cell turned off, VF 1. -/
theorem test_drw_T105 :
    (drawSprite 0 1 1 ((spriteState 0x81 0 0xFF 0xFF).setFb (flipCell clearFb 31 63))).pixel 31 63 = false ∧
    (drawSprite 0 1 1 ((spriteState 0x81 0 0xFF 0xFF).setFb (flipCell clearFb 31 63))).pixel 31 6 = false ∧
    (drawSprite 0 1 1 ((spriteState 0x81 0 0xFF 0xFF).setFb (flipCell clearFb 31 63))).getV VF = 1 := by decide
/-- T110: a held draw only rewinds (and the model counts the answer). -/
theorem test_drw_held_T110 :
    drawWith false 0 1 1 (withQuirks (fun c => { c with displayWait := true }) (spriteState 0x80 0 0 0)).advance =
      (withQuirks (fun c => { c with displayWait := true }) (spriteState 0x80 0 0 0)).usedReady := by decide

/-! ### Keypad and timers (part 2.6) -/

/-- T120, T124. -/
theorem test_skp_T120 : (cycle (startAt 0xE49E fun s => (s.setV 4 7).setKey 7 true)).pc = 0x0204 := by decide
theorem test_skp_T124 : faultReadout (cycle (startAt 0xE19E (·.setV 1 0x10))) = (true, .badKeyIndex, 0xE19E) := by decide
/-- T122, T125. -/
theorem test_sknp_T122 : (cycle (startAt 0xE4A1 (·.setV 4 7))).pc = 0x0204 := by decide
theorem test_sknp_T125 : faultReadout (cycle (startAt 0xE1A1 (·.setV 1 0x17))) = (true, .badKeyIndex, 0xE1A1) := by decide
/-- T126, T127: a release without a pending wait is not recorded, and the wait then starts. -/
theorem test_ldVxK_T127 :
    (cycle (releaseKey 3 (pressKey 3 (startAt 0xF30A id)))).wait = true ∧
    (cycle (releaseKey 3 (pressKey 3 (startAt 0xF30A id)))).pc = 0x0200 ∧
    (releaseKey 3 (pressKey 3 (startAt 0xF30A id))).rel = none := by decide
/-- T128: the last release wins. -/
theorem test_ldVxK_T128 :
    (cycle (releaseKey 0xB (releaseKey 0xA (startAt 0xF30A (·.setWait true none))))).getV 3 = 0x0B ∧
    (cycle (releaseKey 0xB (releaseKey 0xA (startAt 0xF30A (·.setWait true none))))).rel = none ∧
    (cycle (releaseKey 0xB (releaseKey 0xA (startAt 0xF30A (·.setWait true none))))).wait = false := by decide
/-- T130. -/
theorem test_ldVxDt_T130 : (cycle (startAt 0xF107 (·.setDT 6))).getV 1 = 6 := by decide
/-- T131. -/
theorem test_ldDtVx_T131 : (cycle (startAt 0xF015 (·.setV 0 7))).DT = 7 := by decide
/-- T132. -/
theorem test_ldStVx_T132 : (cycle (startAt 0xF218 (·.setV 2 0x1E))).ST = 0x1E ∧
    soundOn (cycle (startAt 0xF218 (·.setV 2 0x1E))) = true := by decide
/-- X8: the floor. -/
theorem test_tick_X8 : (decreaseTimers (decreaseTimers ((State.reset.setDT 2).setST 1))).DT = 0 ∧
    (decreaseTimers (decreaseTimers ((State.reset.setDT 2).setST 1))).ST = 0 := by decide

/-! ### Loader and reset (part 2.7) -/

/-- 50_host_interface.md R239: the first byte is at 0x200. -/
theorem test_load : ((loadProgram [0x12, 0x00] State.reset).1).readWord 0x200 = 0x1200 ∧
    (loadProgram [0x12, 0x00] State.reset).2 = .ok := by decide
/-- T144: reset after a fatal condition and a store. -/
theorem test_reset_T144 : (resetCore (cycle (State.reset.writeByte 0x050 0))).readByte 0x050 = 0xF0 ∧
    (resetCore (cycle (State.reset.writeByte 0x050 0))).halted = false ∧
    (resetCore (cycle (State.reset.writeByte 0x050 0))).pc = 0x0200 := by decide

/-! ### Witnesses: a state and operands that meet all hypotheses of an obligation -/

theorem witness_EncodeOfDecodeIsTheWord : decode 0xD125 = some (.drw 1 2 5) := by decide

theorem witness_DecoderFollowsTheOpcodeTable_legal : decode 0x812E = some (.shl 1 2) := by decide
theorem witness_DecoderFollowsTheOpcodeTable_illegal : ∀ r ∈ opcodeTable, rowCovers r 0x5121 = false := by
  have h : (opcodeTable.all fun r => !rowCovers r 0x5121) = true := by decide
  exact fun r hr => by simpa using List.all_eq_true.mp h r hr
theorem witness_DecoderFollowsTheOpcodeTable_rows :
    (0xF00F, 0x800E) ∈ opcodeTable ∧ rowCovers (0xF00F, 0x800E) 0x812E = true := by decide

theorem witness_PlacedWordIsFetchedAndExecuted :
    Memory.wf State.reset.config State.reset.mem = true ∧ decode (BitVec.ofNat 16 0xD125) = some (.drw 1 2 5) ∧
    State.reset.halted = false ∧ memIndex 0x1FF ≠ memIndex State.reset.pc ∧
    memIndex 0x1FF ≠ memIndex (State.reset.pc + 1) := by decide

theorem witness_StepRunsTheDecodedInstruction_halted : (cycle State.reset).halted = true := by decide
theorem witness_StepRunsTheDecodedInstruction_legal :
    (startAt 0x6A2F id).halted = false ∧
    decode ((startAt 0x6A2F id).readByte (startAt 0x6A2F id).pc ++ (startAt 0x6A2F id).readByte ((startAt 0x6A2F id).pc + 1)) =
      some (.ldImm 10 0x2F) := by decide
theorem witness_StepRunsTheDecodedInstruction_illegal :
    State.reset.halted = false ∧
    decode (State.reset.readByte State.reset.pc ++ State.reset.readByte (State.reset.pc + 1)) = none := by decide

theorem witness_EveryCycleEndsOkOrWithAFatalCondition : LatchConsistent State.reset ∧ LatchConsistent (cycle State.reset) := by
  unfold LatchConsistent; decide

/-- Each row of the table of causes, and the values next to its boundary where no condition holds. -/
theorem witness_FatalConditionsArePreciseAndComplete_causes :
    fatalCause State.reset = some .unknownInstruction ∧
    fatalCause (startAt 0x00EE id) = some .stackUnderflow ∧
    fatalCause (startAt 0x2400 fun s => { s with sp := 16 }) = some .stackOverflow ∧
    fatalCause (startAt 0xE19E (·.setV 1 16)) = some .badKeyIndex ∧
    fatalCause (startAt 0xEFA1 (·.setV VF 255)) = some .badKeyIndex := by decide
theorem witness_FatalConditionsArePreciseAndComplete_none :
    fatalCause (startAt 0x00EE fun s => { s with sp := 1 }) = none ∧
    fatalCause (startAt 0x2400 fun s => { s with sp := 15 }) = none ∧
    fatalCause (startAt 0xE19E (·.setV 1 15)) = none ∧ (startAt 0xE19E (·.setV 1 15)).halted = false := by decide

theorem witness_HaltedCoreStaysHaltedUntilReset :
    (cycle State.reset).halted = true ∧ AgentStep.reset ∉ [AgentStep.cycle, .tick, .press 3, .release 3, .load [1], .cycle] := by
  decide

theorem witness_PcAfterEachInstruction :
    (startAt 0x00EE id).halted = false ∧ decode (fetchOp (startAt 0x00EE id)) = some .ret ∧
    (startAt 0x00EE id).sp.val = 0 ∧
    decode (fetchOp (startAt 0x2400 fun s => { s with sp := 16 })) = some (.call 0x400) ∧
    decode (fetchOp (startAt 0xE19E (·.setV 1 16))) = some (.skp 1) ∧ 15 < ((startAt 0xE19E (·.setV 1 16)).getV 1).toNat := by
  decide

/-- The boundary: sixteen calls from the empty stack, all sixteen returned. -/
theorem witness_ReturnsUndoNestedCalls :
    State.reset.sp.val + (List.replicate 16 (0x400 : Addr)).length ≤ 16 ∧ 16 ≤ (List.replicate 16 (0x400 : Addr)).length ∧
    State.reset.sp.val = 0 := by decide

/-- T22. -/
theorem witness_SelfJumpIsTheEndState : AtSelfJump (startAt 0x1200 id) := ⟨by unfold Running; decide, 0x200, by decide, by decide⟩

theorem witness_ShiftResultsAndFlags :
    5 = (if (State.reset.setV 1 5).config.shiftUseVy then ((State.reset.setV 1 5).getV 2).toNat
      else ((State.reset.setV 1 5).getV 1).toNat) ∧
    8 = (if (withQuirks (fun c => { c with shiftUseVy := true }) (State.reset.setV 2 8)).config.shiftUseVy
      then ((withQuirks (fun c => { c with shiftUseVy := true }) (State.reset.setV 2 8)).getV 2).toNat else 0) := by decide

theorem witness_GlyphAddressIsFiveBytesPerDigit :
    (State.reset.setV 3 15).config.wf = true ∧ 5 * 15 + 4 < 80 ∧ ((State.reset.setV 3 15).getV 3).toNat = 15 ∧ 4 < 5 := by
  decide

/-- The hypothesis of the two stores and of the loader: memory in canonical form, here with bytes listed. -/
theorem witness_BcdDigitsAreStored :
    Memory.wf (spriteState 1 2 3 4).config (spriteState 1 2 3 4).mem = true ∧
    memIndex 0x303 ≠ memIndex (spriteState 1 2 3 4).I ∧ memIndex 0x303 ≠ memIndex ((spriteState 1 2 3 4).I + 1) ∧
    memIndex 0x303 ≠ memIndex ((spriteState 1 2 3 4).I + 2) := by decide
theorem witness_RegisterBlockIsStored :
    Memory.wf (spriteState 1 2 3 4).config (spriteState 1 2 3 4).mem = true ∧
    ∀ i : Reg, i ≤ 15 → memIndex 0x310 ≠ memIndex ((spriteState 1 2 3 4).I + BitVec.ofNat 16 i.val) := by decide

/-- X6: Fx55, the registers zeroed, Fx65. -/
def storedState : State := (storeRegs (spriteState 1 2 3 4).I (spriteState 1 2 3 4) 3).setI (indexAfterBlock (spriteState 1 2 3 4) 2)
theorem witness_StoreThenLoadRestoresRegisters :
    Memory.wf (spriteState 1 2 3 4).config (spriteState 1 2 3 4).mem = true ∧
    exec (.stRegs 2) (spriteState 1 2 3 4) = .next storedState ∧
    (storedState.setV 0 0).I = (spriteState 1 2 3 4).I ∧
    ∀ i : Reg, i ≤ 2 → (storedState.setV 0 0).readByte ((spriteState 1 2 3 4).I + BitVec.ofNat 16 i.val) =
      storedState.readByte ((spriteState 1 2 3 4).I + BitVec.ofNat 16 i.val) :=
  ⟨by decide, rfl, rfl, fun _ _ => rfl⟩

/-- P5: the store over the next opcode, both of its bytes. -/
theorem witness_StoreIsSeenByTheNextFetch :
    Memory.wf State.reset.config State.reset.mem = true ∧
    (∃ t : State, exec (.stRegs 1) ((State.reset.setPc 0x208).setI 0x208) = .next t) ∧ (0 : Reg) ≤ 1 ∧
    memIndex ((State.reset.setPc 0x208).setI 0x208).pc =
      memIndex (((State.reset.setPc 0x208).setI 0x208).I + BitVec.ofNat 16 (0 : Reg).val) ∧
    memIndex (((State.reset.setPc 0x208).setI 0x208).pc + 1) =
      memIndex (((State.reset.setPc 0x208).setI 0x208).I + BitVec.ofNat 16 (1 : Reg).val) :=
  ⟨rfl, ⟨_, rfl⟩, by decide, by decide, by decide⟩

theorem witness_OnlyTwoInstructionsWriteMemory :
    isStore (.ldRegs 3) = false ∧ ∃ t : State, exec (.ldRegs 3) State.reset = .next t := ⟨rfl, _, rfl⟩

theorem witness_ClearThenDrawShowsTheSpriteAlone :
    exec .cls (spriteState 0xA0 0 2 3) = .next ((spriteState 0xA0 0 2 3).setFb clearFb) ∧
    ((spriteState 0xA0 0 2 3).config.displayWait = true → true = true) := ⟨rfl, fun _ => rfl⟩

/-- X10: the same draw twice. -/
theorem witness_DrawingTwiceRestoresTheScreen :
    (drawWith true 0 1 1 (spriteState 0xA0 0 2 3)).fb = (drawWith true 0 1 1 (spriteState 0xA0 0 2 3)).fb ∧
    ((drawWith true 0 1 1 (spriteState 0xA0 0 2 3)).getV 0).toNat % 64 = ((spriteState 0xA0 0 2 3).getV 0).toNat % 64 ∧
    ((drawWith true 0 1 1 (spriteState 0xA0 0 2 3)).getV 1).toNat % 32 = ((spriteState 0xA0 0 2 3).getV 1).toNat % 32 ∧
    (drawWith true 0 1 1 (spriteState 0xA0 0 2 3)).readByte 0x300 = (spriteState 0xA0 0 2 3).readByte 0x300 ∧
    (drawWith true 0 1 1 (spriteState 0xA0 0 2 3)).I = (spriteState 0xA0 0 2 3).I ∧
    (∀ (r : Fin 32) (c : Fin 64), (spriteState 0xA0 0 2 3).pixel r c = false) :=
  ⟨rfl, by decide, by decide, by decide, rfl, fun r c => by simp [spriteState, State.pixel, State.reset, State.resetWith, State.setV, State.setI, State.writeByte]⟩

theorem witness_HeldDrawIsRetriedUntilReady :
    (startAt 0xD011 (withQuirks fun c => { c with displayWait := true })).halted = false ∧
    (startAt 0xD011 (withQuirks fun c => { c with displayWait := true })).config.displayWait = true ∧
    decode (fetchOp (startAt 0xD011 (withQuirks fun c => { c with displayWait := true }))) = some (.drw 0 1 1) := by decide

/-- Both sides of R216's bound, and both states of the released-key slot. -/
theorem witness_KeySkipsTestTheKeyState :
    ((State.reset.setV 4 15).getV 4).toNat < 16 ∧ ¬ ((State.reset.setV 4 16).getV 4).toNat < 16 := by decide
theorem witness_KeyWaitDeliversOrRetries :
    State.reset.rel = none ∧ (State.reset.setWait true (some 15)).rel = some 15 := by decide

/-- Both sides of the stack's bounds. -/
theorem witness_CallPushesTheReturnAddress :
    ({ State.reset with sp := 16 } : State).sp.val = 16 ∧ ¬ ({ State.reset with sp := 15 } : State).sp.val = 16 := by decide
theorem witness_ReturnPopsIntoPc : State.reset.sp.val = 0 ∧ ¬ ({ State.reset with sp := 1 } : State).sp.val = 0 := by decide

/-- Both outcomes of the display-wait gate. -/
theorem witness_DrawIsCellwiseExclusiveOr :
    ((withQuirks (fun c => { c with displayWait := true }) State.reset).config.displayWait = true ∧ false = false) ∧
    ¬ (State.reset.config.displayWait = true ∧ false = false) := by decide

theorem witness_DelayTimerCountsTheTicks : NoDelayWrite [.tick, .cycle, .tick, .press 3] (startAt 0x6A2F (·.setDT 2)) :=
  ⟨by decide, by decide, by decide, by decide, by decide, by decide, by decide, by decide, trivial⟩

theorem witness_LoaderCopiesTheProgram :
    Memory.wf State.reset.config State.reset.mem = true ∧ (List.replicate 3584 (0xAA : Byte)).length ≤ 3584 ∧
    memIndex 0x1FF < 0x200 := ⟨rfl, by rw [List.length_replicate], by decide⟩
theorem witness_OversizedProgramChangesNothing : 3584 < (List.replicate 3585 (0xBB : Byte)).length := by
  rw [List.length_replicate]
  decide

/-- The boundaries of FONT_BASE. -/
theorem witness_ResetGivesTheTabledValues :
    State.reset.config.wf = true ∧ ({ resetConfig with fontBase := 0 } : Config).wf = true ∧
    ({ resetConfig with fontBase := 432 } : Config).wf = true ∧ memIndex 0x0A0 = State.reset.config.fontBase + 80 := by decide
theorem witness_BootWithoutProgramHalts : ({ resetConfig with fontBase := 432 } : Config).wf = true := by decide
theorem witness_BootFetchesTheFirstOpcode :
    resetConfig.wf = true ∧ ((0x12 : Byte) :: 0x00 :: [0x34]).length ≤ 3584 := by decide

theorem witness_EveryStepKeepsTheInvariant :
    Inv (startAt 0xF155 (·.setI 0x300)) ∧ ∃ t : State, step (startAt 0xF155 (·.setI 0x300)) = .next t :=
  ⟨by unfold Inv WaitConsistent LatchConsistent; decide, _, rfl⟩
theorem witness_EveryReachableStateMeetsTheInvariant :
    Inv (releaseKey 3 (startAt 0xF155 (·.setWait true none))) ∧
    Reachable (runAgents [.load [0x12, 0x00], .cycle] (State.resetWith resetConfig)) :=
  ⟨by unfold Inv WaitConsistent LatchConsistent; decide, resetConfig, _, by decide, rfl⟩
theorem witness_ResetStateMeetsTheInvariant : ({ resetConfig with fontBase := 432 } : Config).wf = true := by decide

/-- `w` differs from the registers in V5, which 8xy0 with x = 1, y = 2 does not read. -/
theorem witness_RegisterReadsAndWritesAreThoseTabled :
    ∀ r : Reg, mayRead State.reset.config (.ldReg 1 2) r = true → (State.reset.V.set 5 9)[r] = State.reset.V[r] := by decide

theorem witness_HighAddressBitsAreNeverObserved :
    AgreeBelowBit12 State.reset { State.reset with pc := 0x1200, I := 0xF000, stack := State.reset.stack.set 0 0xA000 } := by
  unfold AgreeBelowBit12; decide

theorem witness_CanonicalMemoriesThatReadAlikeAreEqual :
    Memory.wf resetConfig [(0x050, 0x00), (0x200, 0x12)] = true ∧
    ∀ a : Nat, a < memSize → Memory.lookup resetConfig [(0x050, 0x00), (0x200, 0x12)] a =
      Memory.lookup resetConfig [(0x050, 0x00), (0x200, 0x12)] a := ⟨by decide, fun _ _ => rfl⟩

theorem witness_DisplayAnswersAreExactlyTheFairOnes : FairAnswers fun n => n % 2 == 1 := fun n =>
  ⟨2 * n + 1, by omega, by
    show (2 * n + 1) % 2 == 1
    rw [show (2 * n + 1) % 2 = 1 by omega]
    rfl⟩

theorem witness_InfiniteRunsAreTheirFiniteBeginnings : resetConfig.wf = true := by decide

/-- A cycle in every other step, ticks between them. -/
theorem witness_HeldDrawIsPerformedInEveryFairRun :
    (startAt 0xD011 (withQuirks fun c => { c with displayWait := true })).halted = false ∧
    (startAt 0xD011 (withQuirks fun c => { c with displayWait := true })).config.displayWait = true ∧
    decode (fetchOp (startAt 0xD011 (withQuirks fun c => { c with displayWait := true }))) = some (.drw 0 1 1) ∧
    NoResetNoLoad (fun n => if n % 2 = 0 then .tick else .cycle) ∧
    CyclesForever fun n => if n % 2 = 0 then .tick else .cycle :=
  ⟨by decide, by decide, by decide, fun n => by dsimp only; split <;> simp,
    fun n => ⟨2 * n + 1, by omega, if_neg (by omega)⟩⟩

/-- 43_display.md R192 with a given environment: two held answers, a true one, one held, a true one (P3 of
95_test_vectors.md). -/
theorem test_displayAnswers_P3 :
    (List.range 5).map (answerAt fun j => if j = 0 then 2 else 1) = [false, false, true, false, true] := by decide

end Sys2Proof.Machine
end

section
/-! The configuration of the instance (00_scope.md R8, 10_state.md R32): every shared operation, every instruction and every
agent step keeps it. -/

namespace Sys2Proof.Machine

/-! ### Shared operations -/

@[simp] theorem writeResultThenFlag_config (s : State) (x : Reg) (r f : Byte) :
    (writeResultThenFlag s x r f).config = s.config := rfl

@[simp] theorem writeFlagThenResult_config (s : State) (x : Reg) (f r : Byte) :
    (writeFlagThenResult s x f r).config = s.config := rfl

@[simp] theorem writeLogic_config (s : State) (x : Reg) (r : Byte) : (writeLogic s x r).config = s.config := by
  rw [writeLogic_eq]; rfl

@[simp] theorem randomWith_config (b : Byte) (x : Reg) (nn : Byte) (s : State) :
    (randomWith b x nn s).config = s.config := rfl

@[simp] theorem drawSprite_config (x y : Reg) (n : Fin 16) (s : State) :
    (drawSprite x y n s).config = s.config := rfl

/-- A draw keeps the configuration, performed or held. -/
@[simp] theorem drawWith_config (ready : Bool) (x y : Reg) (n : Fin 16) (s : State) :
    (drawWith ready x y n s).config = s.config := by
  unfold drawWith
  split
  · cases ready <;> rfl
  · rfl

@[simp] theorem storeRegs_config (base : Word) (s : State) (n : Nat) :
    (storeRegs base s n).config = s.config := by
  rw [storeRegs_eq]; rfl

@[simp] theorem loadRegs_config (base : Word) (s : State) (n : Nat) :
    (loadRegs base s n).config = s.config := by
  rw [loadRegs_eq]; rfl

@[simp] theorem resetCore_config (s : State) : (resetCore s).config = s.config := rfl

/-! ### Instructions with two outcomes -/

theorem execRet_config (s : State) : ∃ t : State, execRet s = .next t ∧ t.config = s.config := by
  unfold execRet
  obtain ⟨_, hpop⟩ | ⟨_, hpop⟩ := s.pop_cases
  · rw [hpop]; exact ⟨_, rfl, rfl⟩
  · rw [hpop]; exact ⟨_, rfl, rfl⟩

theorem execCall_config (nnn : Addr) (s : State) :
    ∃ t : State, execCall nnn s = .next t ∧ t.config = s.config := by
  unfold execCall
  obtain ⟨_, hpush⟩ | ⟨_, hpush⟩ := s.push_cases s.pc
  · rw [hpush]; exact ⟨_, rfl, rfl⟩
  · rw [hpush]; exact ⟨_, rfl, rfl⟩

theorem execSkp_config (x : Reg) (s : State) : ∃ t : State, execSkp x s = .next t ∧ t.config = s.config := by
  unfold execSkp
  cases keyIndex s x with
  | some k => exact ⟨_, rfl, State.skipIf_config s _⟩
  | none => exact ⟨_, rfl, rfl⟩

theorem execSknp_config (x : Reg) (s : State) : ∃ t : State, execSknp x s = .next t ∧ t.config = s.config := by
  unfold execSknp
  cases keyIndex s x with
  | some k => exact ⟨_, rfl, State.skipIf_config s _⟩
  | none => exact ⟨_, rfl, rfl⟩

theorem execLdVxK_config (x : Reg) (s : State) : ∃ t : State, execLdVxK x s = .next t ∧ t.config = s.config := by
  unfold execLdVxK
  cases s.rel with
  | some k => exact ⟨_, rfl, rfl⟩
  | none => exact ⟨_, rfl, rfl⟩

/-! ### Every instruction and every agent step -/

/-- Every instruction completes and keeps the configuration: the five that read a condition first by their own lemma, the others
by what their shared operation does. -/
theorem exec_config (i : Instr) (s : State) : ∃ t : State, exec i s = .next t ∧ t.config = s.config := by
  cases i with
  | ret => exact execRet_config s
  | call nnn => exact execCall_config nnn s
  | skp x => exact execSkp_config x s
  | sknp x => exact execSknp_config x s
  | ldVxK x => exact execLdVxK_config x s
  | _ => exact ⟨_, rfl, by simp⟩

/-- A cycle completes and keeps the configuration: halted, with a decoded instruction, and with an illegal opcode. -/
theorem step_config (s : State) : ∃ t : State, step s = .next t ∧ t.config = s.config := by
  unfold step
  split
  · exact ⟨s, rfl, rfl⟩
  · cases decode (fetchOp s) with
    | some i => exact exec_config i s.advance
    | none => exact ⟨_, rfl, rfl⟩

@[simp] theorem cycle_config (s : State) : (cycle s).config = s.config := by
  obtain ⟨t, hstep, hconfig⟩ := step_config s
  simp only [cycle, hstep, hconfig]

@[simp] theorem releaseKey_config (k : Key) (s : State) : (releaseKey k s).config = s.config := by
  unfold releaseKey
  split <;> rfl

@[simp] theorem loadProgram_config (bytes : List Byte) (s : State) : (loadProgram bytes s).1.config = s.config := by
  unfold loadProgram
  split
  · exact State.writeBytes_config bytes s _
  · rfl

@[simp] theorem agentStep_config (a : AgentStep) (s : State) : (agentStep a s).config = s.config := by
  cases a with
  | cycle => exact cycle_config s
  | tick => rfl
  | press k => rfl
  | release k => exact releaseKey_config k s
  | load bytes => exact loadProgram_config bytes s
  | reset => exact resetCore_config s

@[simp] theorem runAgents_config (l : List AgentStep) (s : State) : (runAgents l s).config = s.config := by
  induction l generalizing s with
  | nil => rfl
  | cons a l ih => rw [runAgents_cons, ih, agentStep_config]

/-- Settles O51: no instruction writes the configuration, and by induction on the run no list of agent steps does. -/
theorem configurationNeverChanges : Obligations.ConfigurationNeverChanges :=
  ⟨exec_config, runAgents_config⟩

end Sys2Proof.Machine
end

section
/-! What the four instructions with a fatal condition answer, one equation for each outcome (60_exceptions.md R262, R264, R265). -/

namespace Sys2Proof.Machine

theorem execRet_of_empty (s : State) (h : s.sp.val = 0) :
    execRet s = .next (s.raiseFatal .stackUnderflow (encode .ret)) := by
  obtain ⟨_, hpop⟩ | ⟨_, _⟩ := s.pop_cases
  · simp only [execRet, hpop]
  · omega

theorem execRet_of_nonempty (s : State) (h : 0 < s.sp.val) :
    execRet s = .next { s with
      pc := s.stack[s.sp.val - 1]'(by have := s.sp.isLt; omega), sp := ⟨s.sp.val - 1, by omega⟩ } := by
  obtain ⟨_, _⟩ | ⟨_, hpop⟩ := s.pop_cases
  · omega
  · simp only [execRet, hpop]; rfl

theorem execCall_of_full (nnn : Addr) (s : State) (h : s.sp.val = 16) :
    execCall nnn s = .next (s.raiseFatal .stackOverflow (encode (.call nnn))) := by
  obtain ⟨_, hpush⟩ | ⟨_, _⟩ := s.push_cases s.pc
  · simp only [execCall, hpush]
  · omega

theorem execCall_of_room (nnn : Addr) (s : State) (h : s.sp.val < 16) :
    execCall nnn s = .next { s with
      pc := zextAddr nnn, stack := s.stack.set s.sp.val s.pc h, sp := ⟨s.sp.val + 1, by omega⟩ } := by
  obtain ⟨_, _⟩ | ⟨_, hpush⟩ := s.push_cases s.pc
  · omega
  · simp only [execCall, hpush]; rfl

/-- The key that a register names (44_keypad_timers.md R216). -/
theorem keyIndex_of_lt (s : State) (x : Reg) (h : (s.getV x).toNat < 16) :
    keyIndex s x = some ⟨(s.getV x).toNat, h⟩ := dif_pos h

theorem keyIndex_of_ge (s : State) (x : Reg) (h : ¬ (s.getV x).toNat < 16) : keyIndex s x = none := dif_neg h

theorem execSkp_of_key (s : State) (x : Reg) (k : Key) (h : keyIndex s x = some k) :
    execSkp x s = .next (s.skipIf s.key[k]) := by
  simp only [execSkp, h]

theorem execSkp_of_none (s : State) (x : Reg) (h : keyIndex s x = none) :
    execSkp x s = .next (s.raiseFatal .badKeyIndex (encode (.skp x))) := by
  simp only [execSkp, h]

theorem execSknp_of_key (s : State) (x : Reg) (k : Key) (h : keyIndex s x = some k) :
    execSknp x s = .next (s.skipIf (!s.key[k])) := by
  simp only [execSknp, h]

theorem execSknp_of_none (s : State) (x : Reg) (h : keyIndex s x = none) :
    execSknp x s = .next (s.raiseFatal .badKeyIndex (encode (.sknp x))) := by
  simp only [execSknp, h]

/-- Fx0A with a recorded release delivers it (44_keypad_timers.md R212). -/
theorem execLdVxK_of_some (s : State) (x : Reg) (k : Key) (h : s.rel = some k) :
    execLdVxK x s = .next ((s.setV x (keyByte k)).setWait false none) := by
  simp only [execLdVxK, h]

/-- Fx0A without one waits and is retried (R212). -/
theorem execLdVxK_of_none (s : State) (x : Reg) (h : s.rel = none) :
    execLdVxK x s = .next (s.setWait true none).rewind := by
  simp only [execLdVxK, h]

end Sys2Proof.Machine
end

section
/-! The invariant (10_state.md R42, R44; 20_memory.md R61): the reset state has it, each operation, each instruction and each
agent step keeps it. An operation that writes neither the memory nor the configuration, the wait slot or the latch keeps it by
unfolding. -/

namespace Sys2Proof.Machine

/-! ### The reset state -/

theorem inv_resetWith {c : Config} (h : c.wf = true) : Inv (State.resetWith c) :=
  ⟨h, Memory.wf_nil c, fun hrel => absurd rfl hrel, fun hhalt => by simp at hhalt, fun _ => ⟨rfl, rfl⟩⟩

theorem resetConfig_wf : resetConfig.wf = true := by decide

/-- Settles O48: the memory of a reset state lists nothing, no release is recorded and the latch is clear. -/
theorem resetStateMeetsTheInvariant : Obligations.ResetStateMeetsTheInvariant :=
  ⟨inv_resetWith resetConfig_wf, fun _ => inv_resetWith⟩

/-! ### Operations -/

section
variable {s : State} (h : Inv s)
include h

theorem Inv.writeByte (a : Word) (v : Byte) : Inv (s.writeByte a v) := by
  obtain ⟨hconfig, hmem, hrest⟩ := h
  exact ⟨hconfig, s.writeByte_wf a v hmem, hrest⟩

theorem Inv.writeBytes (a : Word) (bs : List Byte) : Inv (s.writeBytes a bs) := by
  induction bs generalizing s a with
  | nil => exact h
  | cons b bs ih => exact ih (h.writeByte a b) (a + 1)

theorem Inv.storeRegs (base : Word) (n : Nat) : Inv (storeRegs base s n) := by
  induction n with
  | zero => exact h
  | succ n ih => exact ih.writeByte _ _

theorem Inv.loadRegs (base : Word) (n : Nat) : Inv (loadRegs base s n) := by
  rw [loadRegs_eq]; exact h

theorem Inv.writeLogic (x : Reg) (b : Byte) : Inv (writeLogic s x b) := by
  rw [writeLogic_eq]; exact h

theorem Inv.skipIf (b : Bool) : Inv (s.skipIf b) := by
  cases b <;> exact h

theorem Inv.drawWith (ready : Bool) (x y : Reg) (n : Fin 16) : Inv (drawWith ready x y n s) := by
  unfold Machine.drawWith
  split
  · cases ready <;> exact h
  · exact h

/-- The wait slot may take any value that R42 allows. -/
theorem Inv.setWait (w : Bool) (r : Option Key) (hwait : r ≠ none → w = true) : Inv (s.setWait w r) := by
  obtain ⟨hconfig, hmem, -, hlatch⟩ := h
  exact ⟨hconfig, hmem, hwait, hlatch⟩

/-- A fatal condition always leaves its name in the latch (R44). -/
theorem Inv.raiseFatal {c : FaultCode} (hc : c ≠ .noFault) (op : Word) : Inv (s.raiseFatal c op) := by
  obtain ⟨hconfig, hmem, hwait, -⟩ := h
  exact ⟨hconfig, hmem, hwait, fun _ => hc, fun hhalt => by simp at hhalt⟩

/-! ### Instructions with two outcomes -/

theorem Inv.execRet : ∃ t : State, execRet s = .next t ∧ Inv t := by
  by_cases hsp : s.sp.val = 0
  · exact ⟨_, execRet_of_empty s hsp, h.raiseFatal (by simp) _⟩
  · exact ⟨_, execRet_of_nonempty s (by omega), h⟩

theorem Inv.execCall (nnn : Addr) : ∃ t : State, execCall nnn s = .next t ∧ Inv t := by
  by_cases hsp : s.sp.val = 16
  · exact ⟨_, execCall_of_full nnn s hsp, h.raiseFatal (by simp) _⟩
  · exact ⟨_, execCall_of_room nnn s (by omega), h⟩

theorem Inv.execSkp (x : Reg) : ∃ t : State, execSkp x s = .next t ∧ Inv t := by
  cases hkey : keyIndex s x with
  | some k => exact ⟨_, execSkp_of_key s x k hkey, h.skipIf _⟩
  | none => exact ⟨_, execSkp_of_none s x hkey, h.raiseFatal (by simp) _⟩

theorem Inv.execSknp (x : Reg) : ∃ t : State, execSknp x s = .next t ∧ Inv t := by
  cases hkey : keyIndex s x with
  | some k => exact ⟨_, execSknp_of_key s x k hkey, h.skipIf _⟩
  | none => exact ⟨_, execSknp_of_none s x hkey, h.raiseFatal (by simp) _⟩

theorem Inv.execLdVxK (x : Reg) : ∃ t : State, execLdVxK x s = .next t ∧ Inv t := by
  cases hrel : s.rel with
  | some k => exact ⟨_, execLdVxK_of_some s x k hrel, Inv.setWait (s := s.setV x (keyByte k)) h _ _ (by simp)⟩
  | none => exact ⟨_, execLdVxK_of_none s x hrel, h.setWait true none (by simp)⟩

/-! ### Every instruction, every cycle, every agent step -/

/-- Every instruction completes and keeps the invariant. -/
theorem Inv.exec (i : Instr) : ∃ t : State, exec i s = .next t ∧ Inv t := by
  cases i with
  | ret => exact h.execRet
  | call nnn => exact h.execCall nnn
  | skp x => exact h.execSkp x
  | sknp x => exact h.execSknp x
  | ldVxK x => exact h.execLdVxK x
  | seImm x nn => exact ⟨_, rfl, h.skipIf _⟩
  | sneImm x nn => exact ⟨_, rfl, h.skipIf _⟩
  | seReg x y => exact ⟨_, rfl, h.skipIf _⟩
  | sneReg x y => exact ⟨_, rfl, h.skipIf _⟩
  | orReg x y => exact ⟨_, rfl, h.writeLogic x _⟩
  | andReg x y => exact ⟨_, rfl, h.writeLogic x _⟩
  | xorReg x y => exact ⟨_, rfl, h.writeLogic x _⟩
  | drw x y n => exact ⟨_, rfl, h.drawWith _ x y n⟩
  | ldB x => exact ⟨_, rfl, ((h.writeByte _ _).writeByte _ _).writeByte _ _⟩
  | stRegs x => exact ⟨_, rfl, h.storeRegs _ _⟩
  | ldRegs x => exact ⟨_, rfl, h.loadRegs _ _⟩
  | _ => exact ⟨_, rfl, h⟩

/-- A cycle completes and keeps the invariant: halted, with a decoded instruction, and with an illegal opcode. -/
theorem Inv.step : ∃ t : State, step s = .next t ∧ Inv t := by
  unfold Machine.step
  split
  · exact ⟨s, rfl, h⟩
  · have hadvance : Inv s.advance := h
    cases decode (fetchOp s) with
    | some i => exact hadvance.exec i
    | none => exact ⟨_, rfl, hadvance.raiseFatal (by simp) _⟩

theorem Inv.cycle : Inv (cycle s) := by
  obtain ⟨t, hstep, ht⟩ := h.step
  simpa only [Machine.cycle, hstep] using ht

theorem Inv.releaseKey (k : Key) : Inv (releaseKey k s) := by
  unfold Machine.releaseKey
  split
  · exact Inv.setWait (s := s.setKey k false) h true (some k) fun _ => rfl
  · exact h

theorem Inv.loadProgram (bytes : List Byte) : Inv (loadProgram bytes s).1 := by
  unfold Machine.loadProgram
  split
  · exact h.writeBytes _ bytes
  · exact h

theorem Inv.resetCore : Inv (resetCore s) := inv_resetWith h.1

theorem Inv.agentStep (a : AgentStep) : Inv (agentStep a s) := by
  cases a with
  | cycle => exact h.cycle
  | tick => exact h
  | press k => exact h
  | release k => exact h.releaseKey k
  | load bytes => exact h.loadProgram bytes
  | reset => exact h.resetCore

theorem Inv.runAgents (l : List AgentStep) : Inv (runAgents l s) := by
  induction l generalizing s with
  | nil => exact h
  | cons a l ih => exact ih (h.agentStep a)

end

/-- Settles O49: the one next state of a cycle is the one that `Inv.step` gives. -/
theorem everyStepKeepsTheInvariant : Obligations.EveryStepKeepsTheInvariant := by
  intro s t h hstep
  obtain ⟨u, hu, hinv⟩ := h.step
  obtain rfl : u = t := by simpa [hu] using hstep
  exact hinv

/-- Settles O50: the reset state has the invariant and every agent step keeps it, so every run does. -/
theorem everyReachableStateMeetsTheInvariant : Obligations.EveryReachableStateMeetsTheInvariant := by
  refine ⟨fun a s h => h.agentStep a, ?_⟩
  rintro s ⟨c, l, hc, rfl⟩
  exact (inv_resetWith hc).runAgents l

end Sys2Proof.Machine
end

section
/-! Two runs side by side (10_state.md R22, R23, R27, R31). `Alike E ρ σ s t` says that `s` and `t` are one state but for the
registers outside `ρ`, for `I`, `pc` and the stack entries, which are related by `E`, and for `ST` where `σ` is false. Every
operation, every instruction and every agent step keeps it; the statements about what is never read follow from it. -/

namespace Sys2Proof.Machine

/-- What addresses of two runs may differ by: a reflexive relation that sums keep and that no masked access shows
(20_memory.md R61). -/
structure AddressRel (E : Word → Word → Prop) : Prop where
  refl : ∀ a : Word, E a a
  add : ∀ {a b : Word}, E a b → ∀ c : Word, E (a + c) (b + c)
  memIndex_eq : ∀ {a b : Word}, E a b → memIndex b = memIndex a

/-- Two states that agree but for registers outside `ρ`, addresses up to `E`, and `ST` unless `σ`. -/
structure Alike (E : Word → Word → Prop) (ρ : Reg → Prop) (σ : Prop) (s t : State) : Prop where
  regs : ∀ r : Reg, ρ r → t.getV r = s.getV r
  index : E s.I t.I
  pc : E s.pc t.pc
  stack : ∀ j : Fin 16, E s.stack[j] t.stack[j]
  sound : σ → t.ST = s.ST
  rest : { t with V := s.V, I := s.I, pc := s.pc, stack := s.stack, ST := s.ST } = s

/-- Two answers of one meaning: both are next states, and those are alike. -/
def AlikeNext (E : Word → Word → Prop) (ρ : Reg → Prop) (σ : Prop) (p q : Result) : Prop :=
  ∃ s' t' : State, p = .next s' ∧ q = .next t' ∧ Alike E ρ σ s' t'

theorem AlikeNext.of_next {E : Word → Word → Prop} {ρ : Reg → Prop} {σ : Prop} {s' t' : State} (h : Alike E ρ σ s' t') :
    AlikeNext E ρ σ (.next s') (.next t') := ⟨s', t', rfl, rfl, h⟩

theorem AddressRel.sub {E : Word → Word → Prop} (hE : AddressRel E) {a b : Word} (h : E a b) (c : Word) :
    E (a - c) (b - c) := by
  simpa only [BitVec.sub_eq_add_neg] using hE.add h (-c)

section
variable {E : Word → Word → Prop} {ρ : Reg → Prop} {σ : Prop} {s t : State}

/-! ### What alike states share -/

namespace Alike
variable (h : Alike E ρ σ s t)
include h

theorem sp_eq : t.sp = s.sp := (congrArg State.sp h.rest :)
theorem mem_eq : t.mem = s.mem := (congrArg State.mem h.rest :)
theorem delay_eq : t.DT = s.DT := (congrArg State.DT h.rest :)
theorem key_eq : t.key = s.key := (congrArg State.key h.rest :)
theorem wait_eq : t.wait = s.wait := (congrArg State.wait h.rest :)
theorem rel_eq : t.rel = s.rel := (congrArg State.rel h.rest :)
theorem fb_eq : t.fb = s.fb := (congrArg State.fb h.rest :)
theorem halted_eq : t.halted = s.halted := (congrArg State.halted h.rest :)
theorem config_eq : t.config = s.config := (congrArg State.config h.rest :)
theorem randDraws_eq : t.randDraws = s.randDraws := (congrArg State.randDraws h.rest :)
theorem readyDraws_eq : t.readyDraws = s.readyDraws := (congrArg State.readyDraws h.rest :)

theorem readByte_eq {a b : Word} (hab : memIndex b = memIndex a) : t.readByte b = s.readByte a := by
  simp only [State.readByte, h.config_eq, h.mem_eq, hab]

theorem keyIndex_eq {x : Reg} (hx : ρ x) : keyIndex t x = keyIndex s x := by
  unfold keyIndex
  rw [h.regs x hx]

/-- A comparison of fewer registers is weaker. -/
theorem mono {τ : Reg → Prop} (hτ : ∀ r, τ r → ρ r) : Alike E τ σ s t :=
  ⟨fun r hr => h.regs r (hτ r hr), h.index, h.pc, h.stack, h.sound, h.rest⟩

/-! ### Updates of a part that is compared exactly -/

theorem setDT (b : Byte) : Alike E ρ σ (s.setDT b) (t.setDT b) :=
  ⟨h.regs, h.index, h.pc, h.stack, h.sound, congrArg (·.setDT b) h.rest⟩

theorem setFb (f : Framebuffer) : Alike E ρ σ (s.setFb f) (t.setFb f) :=
  ⟨h.regs, h.index, h.pc, h.stack, h.sound, congrArg (·.setFb f) h.rest⟩

theorem setKey (k : Key) (b : Bool) : Alike E ρ σ (s.setKey k b) (t.setKey k b) :=
  ⟨h.regs, h.index, h.pc, h.stack, h.sound, congrArg (·.setKey k b) h.rest⟩

theorem setWait (w : Bool) (r : Option Key) : Alike E ρ σ (s.setWait w r) (t.setWait w r) :=
  ⟨h.regs, h.index, h.pc, h.stack, h.sound, congrArg (·.setWait w r) h.rest⟩

theorem usedRandom : Alike E ρ σ s.usedRandom t.usedRandom :=
  ⟨h.regs, h.index, h.pc, h.stack, h.sound, congrArg State.usedRandom h.rest⟩

theorem usedReady : Alike E ρ σ s.usedReady t.usedReady :=
  ⟨h.regs, h.index, h.pc, h.stack, h.sound, congrArg State.usedReady h.rest⟩

theorem raiseFatal (c : FaultCode) (op : Word) : Alike E ρ σ (s.raiseFatal c op) (t.raiseFatal c op) :=
  ⟨h.regs, h.index, h.pc, h.stack, h.sound, congrArg (·.raiseFatal c op) h.rest⟩

theorem writeByte {a b : Word} (hab : memIndex b = memIndex a) (v : Byte) :
    Alike E ρ σ (s.writeByte a v) (t.writeByte b v) := by
  have hrest := congrArg (·.writeByte a v) h.rest
  refine ⟨h.regs, h.index, h.pc, h.stack, h.sound, ?_⟩
  simpa only [State.writeByte, hab] using hrest

/-! ### Updates of a part that is compared loosely -/

/-- A register that both runs set to one value is compared from then on. -/
theorem setV (x : Reg) (b : Byte) : Alike E (fun r => ρ r ∨ r = x) σ (s.setV x b) (t.setV x b) := by
  refine ⟨fun r hr => ?_, h.index, h.pc, h.stack, h.sound, congrArg (·.setV x b) h.rest⟩
  rw [State.getV_setV, State.getV_setV]
  split
  · rfl
  · next hx => exact h.regs r (hr.resolve_right hx)

theorem setST (b : Byte) : Alike E ρ σ (s.setST b) (t.setST b) :=
  ⟨h.regs, h.index, h.pc, h.stack, fun _ => rfl, congrArg (·.setST b) h.rest⟩

/-- A sound timer that is compared runs down alike. -/
theorem decayST : Alike E ρ σ (s.setST (decay s.ST)) (t.setST (decay t.ST)) :=
  ⟨h.regs, h.index, h.pc, h.stack, fun hσ => congrArg decay (h.sound hσ), congrArg (·.setST (decay s.ST)) h.rest⟩

theorem setI {w w' : Word} (hw : E w w') : Alike E ρ σ (s.setI w) (t.setI w') :=
  ⟨h.regs, hw, h.pc, h.stack, h.sound, congrArg (·.setI w) h.rest⟩

theorem setPc {w w' : Word} (hw : E w w') : Alike E ρ σ (s.setPc w) (t.setPc w') :=
  ⟨h.regs, h.index, hw, h.stack, h.sound, congrArg (·.setPc w) h.rest⟩

/-- What control transfers write: `pc`, the stack and how much of it is in use. -/
theorem setControl {w w' : Word} {p p' : Fin 17} {k k' : Vector Word 16} (hw : E w w') (hp : p' = p)
    (hk : ∀ j : Fin 16, E k[j] k'[j]) :
    Alike E ρ σ { s with pc := w, sp := p, stack := k } { t with pc := w', sp := p', stack := k' } := by
  subst hp
  exact ⟨h.regs, h.index, hw, hk, h.sound, congrArg (fun u => { u with pc := w, sp := p', stack := k }) h.rest⟩

/-! ### Combined writes -/

theorem writeResultThenFlag (x : Reg) (a f : Byte) :
    Alike E (fun r => ρ r ∨ r = x ∨ r = VF) σ (writeResultThenFlag s x a f) (writeResultThenFlag t x a f) :=
  ((h.setV x a).setV VF f).mono fun _ hr => or_assoc.mpr hr

theorem writeFlagThenResult (x : Reg) (f a : Byte) :
    Alike E (fun r => ρ r ∨ r = x ∨ r = VF) σ (writeFlagThenResult s x f a) (writeFlagThenResult t x f a) :=
  ((h.setV VF f).setV x a).mono fun _ hr => or_assoc.mpr (hr.imp_right Or.symm)

theorem writeLogic (x : Reg) (a : Byte) :
    Alike E (fun r => ρ r ∨ r = x ∨ (s.config.vfReset = true ∧ r = VF)) σ (writeLogic s x a) (writeLogic t x a) := by
  unfold Machine.writeLogic
  rw [h.config_eq]
  split
  · exact (h.writeResultThenFlag x a 0).mono fun r hr => hr.imp_right (Or.imp_right And.right)
  · next hreset => exact (h.setV x a).mono fun r hr => hr.imp_right (Or.resolve_right · fun hv => hreset hv.1)

theorem execRet : AlikeNext E ρ σ (execRet s) (execRet t) := by
  have hsp := h.sp_eq
  by_cases hempty : s.sp.val = 0
  · rw [execRet_of_empty s hempty, execRet_of_empty t (by rw [hsp, hempty])]
    exact .of_next (h.raiseFatal _ _)
  · rw [execRet_of_nonempty s (by omega), execRet_of_nonempty t (by rw [hsp]; omega)]
    have hpopped : E (s.stack[s.sp.val - 1]'(by omega)) (t.stack[t.sp.val - 1]'(by omega)) := by
      simpa [hsp] using h.stack ⟨s.sp.val - 1, by omega⟩
    exact .of_next (h.setControl hpopped (Fin.ext (by simp [hsp])) h.stack)

variable (hE : AddressRel E)
include hE

theorem advance : Alike E ρ σ s.advance t.advance := h.setPc (hE.add h.pc 2)

theorem rewind : Alike E ρ σ s.rewind t.rewind := h.setPc (hE.sub h.pc 2)

theorem skipIf (b : Bool) : Alike E ρ σ (s.skipIf b) (t.skipIf b) := by
  cases b
  · exact h
  · exact h.advance hE

/-- The address of byte `k` of a data access. -/
theorem dataAddr_rel (k : Nat) : E (dataAddr s.I k) (dataAddr t.I k) := hE.add h.index _

theorem indexAfterBlock_rel (x : Reg) : E (indexAfterBlock s x) (indexAfterBlock t x) := by
  unfold indexAfterBlock
  rw [h.config_eq]
  split
  · exact hE.add h.index _
  · exact h.index

theorem storeRegs {base base' : Word} (hbase : E base base') (n : Nat) (hle : n ≤ 16)
    (hn : ∀ r : Reg, r.val < n → ρ r) :
    Alike E ρ σ (storeRegs base s n) (storeRegs base' t n) := by
  induction n with
  | zero => exact h
  | succ n ih =>
    have hv : (Fin.ofNat 16 n).val = n := Nat.mod_eq_of_lt (by omega)
    have hreg := h.regs (Fin.ofNat 16 n) (hn _ (by omega))
    have hprev := ih (by omega) fun r hr => hn r (by omega)
    simp only [Machine.storeRegs, hreg]
    exact hprev.writeByte (hE.memIndex_eq (hE.add hbase _)) _

theorem loadRegs {base base' : Word} (hbase : E base base') (n : Nat) (hle : n ≤ 16) :
    Alike E (fun r => ρ r ∨ r.val < n) σ (loadRegs base s n) (loadRegs base' t n) := by
  induction n with
  | zero => exact h.mono fun r hr => hr.resolve_right (Nat.not_lt_zero _)
  | succ n ih =>
    have hv : (Fin.ofNat 16 n).val = n := Nat.mod_eq_of_lt (by omega)
    have hread : t.readByte (dataAddr base' n) = s.readByte (dataAddr base n) :=
      h.readByte_eq (hE.memIndex_eq (hE.add hbase _))
    simp only [Machine.loadRegs, hread]
    refine ((ih (by omega)).setV (Fin.ofNat 16 n) _).mono fun r hr => ?_
    by_cases hrn : r.val = n
    · exact .inr (Fin.ext (by omega))
    · exact .inl (hr.imp_right fun hlt => by omega)

theorem writeBytes {a b : Word} (hab : E a b) (bs : List Byte) :
    Alike E ρ σ (s.writeBytes a bs) (t.writeBytes b bs) := by
  induction bs generalizing s t a b with
  | nil => exact h
  | cons v bs ih => exact ih (h.writeByte (hE.memIndex_eq hab) v) (hE.add hab 1)

theorem drawSprite {x y : Reg} (hx : ρ x) (hy : ρ y) (n : Fin 16) :
    Alike E (fun r => ρ r ∨ r = VF) σ (drawSprite x y n s) (drawSprite x y n t) := by
  have hsprite : (fun r => t.readByte (dataAddr t.I r)) = fun r => s.readByte (dataAddr s.I r) :=
    funext fun r => h.readByte_eq (hE.memIndex_eq (h.dataAddr_rel hE r))
  have hcol : originCol t x = originCol s x := by unfold originCol; rw [h.regs x hx]
  have hrow : originRow t y = originRow s y := by unfold originRow; rw [h.regs y hy]
  unfold Machine.drawSprite
  rw [hsprite, hcol, hrow, h.fb_eq]
  exact (h.setFb _).setV VF _

/-- A draw compares VF from then on where it is performed. -/
theorem drawWith (ready : Bool) {x y : Reg} (hx : ρ x) (hy : ρ y) (n : Fin 16) :
    Alike E (fun r => ρ r ∨ (r = VF ∧ (s.config.displayWait = false ∨ ready = true))) σ
      (drawWith ready x y n s) (drawWith ready x y n t) := by
  unfold Machine.drawWith
  rw [h.config_eq]
  split
  · next hwait =>
    cases ready
    · exact (h.usedReady.rewind hE).mono fun r hr => hr.resolve_right (by simp [hwait])
    · exact (h.usedReady.drawSprite hE hx hy n).mono fun r hr => hr.imp_right And.left
  · exact (h.drawSprite hE hx hy n).mono fun r hr => hr.imp_right And.left

/-! ### Instructions with two outcomes -/

theorem execCall (nnn : Addr) : AlikeNext E ρ σ (execCall nnn s) (execCall nnn t) := by
  have hsp := h.sp_eq
  by_cases hfull : s.sp.val = 16
  · rw [execCall_of_full nnn s hfull, execCall_of_full nnn t (by rw [hsp, hfull])]
    exact .of_next (h.raiseFatal _ _)
  · rw [execCall_of_room nnn s (by omega), execCall_of_room nnn t (by omega)]
    refine .of_next (h.setControl (hE.refl _) (Fin.ext (by simp [hsp])) fun j => ?_)
    simp only [Fin.getElem_fin, Vector.getElem_set, hsp]
    split
    · exact h.pc
    · exact h.stack j

theorem execSkp {x : Reg} (hx : ρ x) : AlikeNext E ρ σ (execSkp x s) (execSkp x t) := by
  have hkey := h.keyIndex_eq hx
  cases hs : keyIndex s x with
  | none =>
    rw [execSkp_of_none s x hs, execSkp_of_none t x (hkey.trans hs)]
    exact .of_next (h.raiseFatal _ _)
  | some k =>
    rw [execSkp_of_key s x k hs, execSkp_of_key t x k (hkey.trans hs), h.key_eq]
    exact .of_next (h.skipIf hE _)

theorem execSknp {x : Reg} (hx : ρ x) : AlikeNext E ρ σ (execSknp x s) (execSknp x t) := by
  have hkey := h.keyIndex_eq hx
  cases hs : keyIndex s x with
  | none =>
    rw [execSknp_of_none s x hs, execSknp_of_none t x (hkey.trans hs)]
    exact .of_next (h.raiseFatal _ _)
  | some k =>
    rw [execSknp_of_key s x k hs, execSknp_of_key t x k (hkey.trans hs), h.key_eq]
    exact .of_next (h.skipIf hE _)

/-- Fx0A compares Vx from then on where it delivers a key. -/
theorem execLdVxK (x : Reg) :
    AlikeNext E (fun r => ρ r ∨ (r = x ∧ s.rel.isSome = true)) σ (execLdVxK x s) (execLdVxK x t) := by
  cases hrel : s.rel with
  | none =>
    rw [execLdVxK_of_none s x hrel, execLdVxK_of_none t x (h.rel_eq.trans hrel)]
    exact .of_next (((h.setWait true none).rewind hE).mono (by simp))
  | some k =>
    rw [execLdVxK_of_some s x k hrel, execLdVxK_of_some t x k (h.rel_eq.trans hrel)]
    exact .of_next (((h.setV x (keyByte k)).setWait false none).mono (by simp))

end Alike

theorem AlikeNext.mono {E : Word → Word → Prop} {ρ τ : Reg → Prop} {σ : Prop} {p q : Result} (h : AlikeNext E ρ σ p q)
    (hτ : ∀ r, τ r → ρ r) : AlikeNext E τ σ p q := by
  obtain ⟨s', t', hp, hq, h'⟩ := h
  exact ⟨s', t', hp, hq, h'.mono hτ⟩

end
end Sys2Proof.Machine
end

section
/-! Every instruction and every agent step in two runs, and the statements that follow (10_state.md R22, R23, R27, R31). -/

namespace Sys2Proof.Machine

/-! ### What an instruction reads -/

/-- The register that Bnnn adds, as 40_flow.md R127 numbers it. -/
theorem offsetReg_eq (c : Config) (nnn : Addr) :
    offsetReg c nnn = if c.bnnn then 0 else Fin.ofNat 16 (nnn.toNat / 256) := by
  have htop : (nnn.extractLsb' 8 4).toFin = Fin.ofNat 16 (nnn.toNat / 256) := by
    apply Fin.ext
    simp [Fin.ofNat, Nat.shiftRight_eq_div_pow]
  rw [offsetReg, htop]

theorem mayRead_offsetReg (c : Config) (nnn : Addr) : mayRead c (.jpOff nnn) (offsetReg c nnn) = true := by
  rw [offsetReg_eq]
  cases hb : c.bnnn <;> simp [mayRead, hb]

section
variable {E : Word → Word → Prop} {ρ : Reg → Prop} {σ : Prop} {s t : State}

theorem Alike.shiftSource_eq (h : Alike E ρ σ s t) {x y : Reg}
    (hread : ∀ r : Reg, mayRead s.config (.shr x y) r = true → ρ r) : shiftSource t x y = shiftSource s x y := by
  unfold shiftSource
  rw [h.config_eq]
  split
  · next hv => exact h.regs y (hread y (by simp [mayRead, hv]))
  · next hv => exact h.regs x (hread x (by simp [mayRead, hv]))

/-! ### Every instruction -/

/-- Alike states stay alike through an instruction whose registers read are compared; its registers written are compared from then
on. -/
theorem Alike.exec (h : Alike E ρ σ s t) (hE : AddressRel E) (i : Instr)
    (hread : ∀ r : Reg, mayRead s.config i r = true → ρ r) :
    AlikeNext E (fun r => ρ r ∨ mayWrite s i r = true) σ (exec i s) (exec i t) := by
  have hreg : ∀ r : Reg, mayRead s.config i r = true → t.getV r = s.getV r := fun r hr => h.regs r (hread r hr)
  cases i with
  | cls => exact .of_next ((h.setFb clearFb).mono (by simp [mayWrite]))
  | ret => exact h.execRet.mono (by simp [mayWrite])
  | jp nnn => exact .of_next ((h.setPc (hE.refl _)).mono (by simp [mayWrite]))
  | call nnn => exact (h.execCall hE nnn).mono (by simp [mayWrite])
  | seImm x nn =>
    simp only [Machine.exec, execSeImm, hreg x (by simp [mayRead])]
    exact .of_next ((h.skipIf hE _).mono (by simp [mayWrite]))
  | sneImm x nn =>
    simp only [Machine.exec, execSneImm, hreg x (by simp [mayRead])]
    exact .of_next ((h.skipIf hE _).mono (by simp [mayWrite]))
  | seReg x y =>
    simp only [Machine.exec, execSeReg, hreg x (by simp [mayRead]), hreg y (by simp [mayRead])]
    exact .of_next ((h.skipIf hE _).mono (by simp [mayWrite]))
  | sneReg x y =>
    simp only [Machine.exec, execSneReg, hreg x (by simp [mayRead]), hreg y (by simp [mayRead])]
    exact .of_next ((h.skipIf hE _).mono (by simp [mayWrite]))
  | ldImm x nn => exact .of_next ((h.setV x nn).mono (by simp [mayWrite]))
  | addImm x nn =>
    simp only [Machine.exec, execAddImm, hreg x (by simp [mayRead])]
    exact .of_next ((h.setV x _).mono (by simp [mayWrite]))
  | ldReg x y =>
    simp only [Machine.exec, execLdReg, hreg y (by simp [mayRead])]
    exact .of_next ((h.setV x _).mono (by simp [mayWrite]))
  | orReg x y =>
    simp only [Machine.exec, execOr, hreg x (by simp [mayRead]), hreg y (by simp [mayRead])]
    exact .of_next ((h.writeLogic x _).mono (by simp [mayWrite]))
  | andReg x y =>
    simp only [Machine.exec, execAnd, hreg x (by simp [mayRead]), hreg y (by simp [mayRead])]
    exact .of_next ((h.writeLogic x _).mono (by simp [mayWrite]))
  | xorReg x y =>
    simp only [Machine.exec, execXor, hreg x (by simp [mayRead]), hreg y (by simp [mayRead])]
    exact .of_next ((h.writeLogic x _).mono (by simp [mayWrite]))
  | addReg x y =>
    simp only [Machine.exec, execAddReg, hreg x (by simp [mayRead]), hreg y (by simp [mayRead])]
    exact .of_next ((h.writeResultThenFlag x _ _).mono (by simp [mayWrite]))
  | sub x y =>
    simp only [Machine.exec, execSub, hreg x (by simp [mayRead]), hreg y (by simp [mayRead])]
    exact .of_next ((h.writeResultThenFlag x _ _).mono (by simp [mayWrite]))
  | subn x y =>
    simp only [Machine.exec, execSubn, hreg x (by simp [mayRead]), hreg y (by simp [mayRead])]
    exact .of_next ((h.writeResultThenFlag x _ _).mono (by simp [mayWrite]))
  | shr x y =>
    simp only [Machine.exec, execShr, h.shiftSource_eq hread]
    exact .of_next ((h.writeFlagThenResult x _ _).mono (by simp [mayWrite]))
  | shl x y =>
    simp only [Machine.exec, execShl, h.shiftSource_eq hread]
    exact .of_next ((h.writeFlagThenResult x _ _).mono (by simp [mayWrite]))
  | ldI nnn => exact .of_next ((h.setI (hE.refl _)).mono (by simp [mayWrite]))
  | jpOff nnn =>
    simp only [Machine.exec, execJpOff, h.config_eq, hreg _ (mayRead_offsetReg s.config nnn)]
    exact .of_next ((h.setPc (hE.refl _)).mono (by simp [mayWrite]))
  | rnd x nn =>
    simp only [Machine.exec, execRnd, h.randDraws_eq]
    exact .of_next ((h.usedRandom.setV x _).mono (by simp [mayWrite]))
  | drw x y n =>
    simp only [Machine.exec, execDrw, h.readyDraws_eq]
    exact .of_next ((h.drawWith hE _ (hread x (by simp [mayRead])) (hread y (by simp [mayRead])) n).mono (by simp [mayWrite]))
  | skp x => exact (h.execSkp hE (hread x (by simp [mayRead]))).mono (by simp [mayWrite])
  | sknp x => exact (h.execSknp hE (hread x (by simp [mayRead]))).mono (by simp [mayWrite])
  | ldVxDt x =>
    simp only [Machine.exec, execLdVxDt, h.delay_eq]
    exact .of_next ((h.setV x _).mono (by simp [mayWrite]))
  | ldVxK x => exact (h.execLdVxK hE x).mono (by simp [mayWrite])
  | ldDtVx x =>
    simp only [Machine.exec, execLdDtVx, hreg x (by simp [mayRead])]
    exact .of_next ((h.setDT _).mono (by simp [mayWrite]))
  | ldStVx x =>
    simp only [Machine.exec, execLdStVx, hreg x (by simp [mayRead])]
    exact .of_next ((h.setST _).mono (by simp [mayWrite]))
  | addI x =>
    simp only [Machine.exec, execAddI, hreg x (by simp [mayRead])]
    exact .of_next ((h.setI (hE.add h.index _)).mono (by simp [mayWrite]))
  | ldF x =>
    simp only [Machine.exec, execLdF, h.config_eq, hreg x (by simp [mayRead])]
    exact .of_next ((h.setI (hE.refl _)).mono (by simp [mayWrite]))
  | ldB x =>
    have haddr (k : Nat) := hE.memIndex_eq (h.dataAddr_rel hE k)
    simp only [Machine.exec, execLdB, hreg x (by simp [mayRead])]
    exact .of_next ((((h.writeByte (haddr 0) _).writeByte (haddr 1) _).writeByte (haddr 2) _).mono (by simp [mayWrite]))
  | stRegs x =>
    have hstored : ∀ r : Reg, r.val < x.val + 1 → ρ r := fun r hr => hread r (decide_eq_true (Nat.le_of_lt_succ hr))
    exact .of_next (((h.storeRegs hE h.index _ (by omega) hstored).setI (h.indexAfterBlock_rel hE x)).mono
      (by simp [mayWrite]))
  | ldRegs x =>
    refine .of_next (((h.loadRegs hE h.index _ (by omega)).setI (h.indexAfterBlock_rel hE x)).mono fun r hr => ?_)
    exact hr.imp_right fun hw => Nat.lt_succ_of_le (of_decide_eq_true hw)

/-! ### Every cycle and every agent step -/

/-- Alike states that compare every register take one cycle alike. -/
theorem Alike.step (h : Alike E (fun _ => True) σ s t) (hE : AddressRel E) :
    AlikeNext E (fun _ => True) σ (step s) (step t) := by
  have hfetch : fetchOp t = fetchOp s := by
    simp only [fetchOp, State.readWord, h.readByte_eq (hE.memIndex_eq h.pc),
      h.readByte_eq (hE.memIndex_eq (hE.add h.pc 1))]
  unfold Machine.step
  rw [h.halted_eq, hfetch]
  split
  · exact .of_next h
  · cases decode (fetchOp s) with
    | some i => exact ((h.advance hE).exec hE i fun _ _ => trivial).mono fun _ _ => .inl trivial
    | none => exact .of_next ((h.advance hE).raiseFatal _ _)

theorem Alike.cycle (h : Alike E (fun _ => True) σ s t) (hE : AddressRel E) :
    Alike E (fun _ => True) σ (cycle s) (cycle t) := by
  obtain ⟨s', t', hs, ht, h'⟩ := h.step hE
  simpa only [Machine.cycle, hs, ht] using h'

theorem Alike.releaseKey (h : Alike E ρ σ s t) (k : Key) : Alike E ρ σ (releaseKey k s) (releaseKey k t) := by
  unfold Machine.releaseKey
  rw [h.wait_eq]
  split
  · exact (h.setKey k false).setWait true (some k)
  · exact h.setKey k false

theorem Alike.loadProgram (h : Alike E ρ σ s t) (hE : AddressRel E) (bytes : List Byte) :
    Alike E ρ σ (loadProgram bytes s).1 (loadProgram bytes t).1 := by
  unfold Machine.loadProgram
  split
  · exact h.writeBytes hE (hE.refl _) bytes
  · exact h

/-- A reset leaves nothing that alike states could differ in. -/
theorem Alike.resetCore (h : Alike E ρ σ s t) (hE : AddressRel E) : Alike E ρ σ (resetCore s) (resetCore t) := by
  have heq : Machine.resetCore t = Machine.resetCore s := by
    simp only [Machine.resetCore, h.config_eq, h.randDraws_eq, h.readyDraws_eq]
  rw [heq]
  exact ⟨fun _ _ => rfl, hE.refl _, hE.refl _, fun _ => hE.refl _, fun _ => rfl, rfl⟩

theorem Alike.agentStep (h : Alike E (fun _ => True) σ s t) (hE : AddressRel E) (a : AgentStep) :
    Alike E (fun _ => True) σ (agentStep a s) (agentStep a t) := by
  cases a with
  | cycle => exact h.cycle hE
  | tick =>
    simp only [Machine.agentStep, decreaseTimers, h.delay_eq]
    exact (h.setDT (decay s.DT)).decayST
  | press k => exact h.setKey k true
  | release k => exact h.releaseKey k
  | load bytes => exact h.loadProgram hE bytes
  | reset => exact h.resetCore hE

theorem Alike.runAgents (h : Alike E (fun _ => True) σ s t) (hE : AddressRel E) (l : List AgentStep) :
    Alike E (fun _ => True) σ (runAgents l s) (runAgents l t) := by
  induction l generalizing s t with
  | nil => exact h
  | cons a l ih => exact ih (h.agentStep hE a)

end

/-! ### High address bits -/

/-- Two words agree below bit 12: all that a masked address shows (20_memory.md R61). -/
def SameLow12 (a b : Word) : Prop := b &&& 0x0FFF = a &&& 0x0FFF

theorem sameLow12_iff_memIndex {a b : Word} : SameLow12 a b ↔ memIndex b = memIndex a :=
  BitVec.toNat_inj.symm

theorem addressRel_sameLow12 : AddressRel SameLow12 where
  refl _ := rfl
  add {a b} h c := by
    rw [sameLow12_iff_memIndex, memIndex_eq_mod, memIndex_eq_mod] at h ⊢
    rw [BitVec.toNat_add, BitVec.toNat_add]
    omega
  memIndex_eq := sameLow12_iff_memIndex.mp

theorem agreeBelowBit12_iff_alike {s t : State} :
    AgreeBelowBit12 s t ↔ Alike SameLow12 (fun _ => True) True s t := by
  constructor
  · rintro ⟨hI, hpc, hstack, hrest⟩
    have hV : t.V = s.V := (congrArg State.V hrest :)
    have hST : t.ST = s.ST := (congrArg State.ST hrest :)
    exact ⟨fun r _ => by rw [State.getV, hV, State.getV], hI, hpc, hstack, fun _ => hST, by rw [← hV, ← hST]; exact hrest⟩
  · rintro ⟨hregs, hI, hpc, hstack, hsound, hrest⟩
    have hV : t.V = s.V := Vector.ext fun j hj => hregs ⟨j, hj⟩ trivial
    exact ⟨hI, hpc, hstack, by rw [← hV, ← hsound trivial] at hrest; exact hrest⟩

/-- Settles O53: agreement below bit 12 is a comparison that every agent step keeps. -/
theorem highAddressBitsAreNeverObserved : Obligations.HighAddressBitsAreNeverObserved := by
  intro l s t h
  exact agreeBelowBit12_iff_alike.mpr ((agreeBelowBit12_iff_alike.mp h).runAgents addressRel_sameLow12 l)

/-! ### The sound timer and the registers -/

theorem addressRel_eq : AddressRel Eq where
  refl _ := rfl
  add h _ := congrArg (· + _) h
  memIndex_eq h := congrArg memIndex h.symm

/-- States that compare every address exactly differ in registers and in the sound timer alone. -/
theorem Alike.rest_of_eq {ρ : Reg → Prop} {σ : Prop} {s t : State} (h : Alike Eq ρ σ s t) :
    { t with V := s.V, ST := s.ST } = s := by
  have hstack : s.stack = t.stack := Vector.ext fun j hj => h.stack ⟨j, hj⟩
  have hrest := h.rest
  rw [h.index, h.pc, hstack] at hrest
  exact hrest

/-- Settles O54: the two states are alike but for the sound timer, which no instruction compares. -/
theorem soundTimerIsNeverRead : Obligations.SoundTimerIsNeverRead := by
  intro s v
  have h : Alike Eq (fun _ => True) False s { s with ST := v } :=
    ⟨fun _ _ => rfl, rfl, rfl, fun _ => rfl, False.elim, rfl⟩
  obtain ⟨t, t', ht, ht', hafter⟩ := h.step addressRel_eq
  refine ⟨t, t', ht, ht', ?_⟩
  have hV : t'.V = t.V := Vector.ext fun j hj => hafter.regs ⟨j, hj⟩ trivial
  have hrest := hafter.rest_of_eq
  rw [← hV] at hrest
  exact hrest

end Sys2Proof.Machine
end

section
/-! The table of 10_state.md R22: what an instruction does not write keeps its value, and what it does not read has no influence. -/

namespace Sys2Proof.Machine

/-! ### Registers that are not written -/

/-- The registers that `W` does not name read in `t` as in `s`. -/
def KeepsRegs (W : Reg → Bool) (s t : State) : Prop := ∀ r : Reg, W r = false → t.getV r = s.getV r

section
variable {W : Reg → Bool} {s : State}

theorem keepsRegs_of_V_eq {t : State} (h : t.V = s.V) : KeepsRegs W s t := fun r _ => by
  rw [State.getV, h, State.getV]

theorem keepsRegs_setV {x : Reg} (b : Byte) (hx : W x = true) : KeepsRegs W s (s.setV x b) := fun r hr => by
  rw [State.getV_setV, if_neg]
  rintro rfl
  exact Bool.false_ne_true (hr.symm.trans hx)

theorem KeepsRegs.trans {t u : State} (h : KeepsRegs W s t) (h' : KeepsRegs W t u) : KeepsRegs W s u :=
  fun r hr => (h' r hr).trans (h r hr)

theorem keepsRegs_writeResultThenFlag {x : Reg} (a f : Byte) (hx : W x = true) (hF : W VF = true) :
    KeepsRegs W s (writeResultThenFlag s x a f) := (keepsRegs_setV a hx).trans (keepsRegs_setV f hF)

theorem keepsRegs_writeFlagThenResult {x : Reg} (f a : Byte) (hx : W x = true) (hF : W VF = true) :
    KeepsRegs W s (writeFlagThenResult s x f a) := (keepsRegs_setV f hF).trans (keepsRegs_setV a hx)

theorem keepsRegs_writeLogic {x : Reg} (a : Byte) (hx : W x = true) (hF : s.config.vfReset = true → W VF = true) :
    KeepsRegs W s (writeLogic s x a) := by
  unfold writeLogic
  split
  · next hreset => exact keepsRegs_writeResultThenFlag a 0 hx (hF hreset)
  · exact keepsRegs_setV a hx

/-- A draw writes VF where it is performed, and nothing where it is held. -/
theorem keepsRegs_drawWith (ready : Bool) (x y : Reg) (n : Fin 16)
    (hF : s.config.displayWait = false ∨ ready = true → W VF = true) : KeepsRegs W s (drawWith ready x y n s) := by
  unfold drawWith
  split
  · cases ready
    · exact keepsRegs_of_V_eq rfl
    · exact keepsRegs_setV _ (hF (.inr rfl))
  · next hwait => exact keepsRegs_setV _ (hF (.inl (by simpa using hwait)))

end

/-- Every instruction completes, and a register that the column "writes" does not list keeps its value. -/
theorem exec_keepsRegs (i : Instr) (s : State) : ∃ t : State, exec i s = .next t ∧ KeepsRegs (mayWrite s i) s t := by
  cases i with
  | ret =>
    by_cases hsp : s.sp.val = 0
    · exact ⟨_, execRet_of_empty s hsp, keepsRegs_of_V_eq rfl⟩
    · exact ⟨_, execRet_of_nonempty s (by omega), keepsRegs_of_V_eq rfl⟩
  | call nnn =>
    by_cases hsp : s.sp.val = 16
    · exact ⟨_, execCall_of_full nnn s hsp, keepsRegs_of_V_eq rfl⟩
    · exact ⟨_, execCall_of_room nnn s (by omega), keepsRegs_of_V_eq rfl⟩
  | skp x =>
    cases hkey : keyIndex s x with
    | some k => exact ⟨_, execSkp_of_key s x k hkey, keepsRegs_of_V_eq (by simp)⟩
    | none => exact ⟨_, execSkp_of_none s x hkey, keepsRegs_of_V_eq rfl⟩
  | sknp x =>
    cases hkey : keyIndex s x with
    | some k => exact ⟨_, execSknp_of_key s x k hkey, keepsRegs_of_V_eq (by simp)⟩
    | none => exact ⟨_, execSknp_of_none s x hkey, keepsRegs_of_V_eq rfl⟩
  | ldVxK x =>
    cases hrel : s.rel with
    | some k => exact ⟨_, execLdVxK_of_some s x k hrel, keepsRegs_setV (keyByte k) (by simp [mayWrite, hrel])⟩
    | none => exact ⟨_, execLdVxK_of_none s x hrel, keepsRegs_of_V_eq rfl⟩
  | ldImm x nn => exact ⟨_, rfl, keepsRegs_setV _ (by simp [mayWrite])⟩
  | addImm x nn => exact ⟨_, rfl, keepsRegs_setV _ (by simp [mayWrite])⟩
  | ldReg x y => exact ⟨_, rfl, keepsRegs_setV _ (by simp [mayWrite])⟩
  | ldVxDt x => exact ⟨_, rfl, keepsRegs_setV _ (by simp [mayWrite])⟩
  | rnd x nn => exact ⟨_, rfl, keepsRegs_setV (s := s.usedRandom) _ (by simp [mayWrite])⟩
  | orReg x y => exact ⟨_, rfl, keepsRegs_writeLogic _ (by simp [mayWrite]) (by simp +contextual [mayWrite])⟩
  | andReg x y => exact ⟨_, rfl, keepsRegs_writeLogic _ (by simp [mayWrite]) (by simp +contextual [mayWrite])⟩
  | xorReg x y => exact ⟨_, rfl, keepsRegs_writeLogic _ (by simp [mayWrite]) (by simp +contextual [mayWrite])⟩
  | addReg x y => exact ⟨_, rfl, keepsRegs_writeResultThenFlag _ _ (by simp [mayWrite]) (by simp [mayWrite])⟩
  | sub x y => exact ⟨_, rfl, keepsRegs_writeResultThenFlag _ _ (by simp [mayWrite]) (by simp [mayWrite])⟩
  | subn x y => exact ⟨_, rfl, keepsRegs_writeResultThenFlag _ _ (by simp [mayWrite]) (by simp [mayWrite])⟩
  | shr x y => exact ⟨_, rfl, keepsRegs_writeFlagThenResult _ _ (by simp [mayWrite]) (by simp [mayWrite])⟩
  | shl x y => exact ⟨_, rfl, keepsRegs_writeFlagThenResult _ _ (by simp [mayWrite]) (by simp [mayWrite])⟩
  | drw x y n => exact ⟨_, rfl, keepsRegs_drawWith _ x y n (by simp [mayWrite])⟩
  | ldRegs x =>
    refine ⟨_, rfl, fun r hr => ?_⟩
    have hlt : ¬ r.val < x.val + 1 := fun h => of_decide_eq_false hr (Nat.le_of_lt_succ h)
    rw [State.getV_setI, loadRegs_getV s.I s _ (by omega) r, if_neg hlt]
  | seImm x nn => exact ⟨_, rfl, keepsRegs_of_V_eq (by simp)⟩
  | sneImm x nn => exact ⟨_, rfl, keepsRegs_of_V_eq (by simp)⟩
  | seReg x y => exact ⟨_, rfl, keepsRegs_of_V_eq (by simp)⟩
  | sneReg x y => exact ⟨_, rfl, keepsRegs_of_V_eq (by simp)⟩
  | stRegs x => exact ⟨_, rfl, keepsRegs_of_V_eq (by rw [storeRegs_eq]; rfl)⟩
  | _ => exact ⟨_, rfl, keepsRegs_of_V_eq rfl⟩

/-- What an instruction writes does not depend on the registers. -/
theorem mayWrite_withV (s : State) (w : Vector Byte 16) (i : Instr) : mayWrite (s.withV w) i = mayWrite s i := by
  cases i <;> rfl

/-! ### Registers that are not read -/

/-- Other registers in a state are compared where they agree. -/
theorem alike_withV (s : State) (w : Vector Byte 16) : Alike Eq (fun r => w[r] = s.V[r]) True s (s.withV w) :=
  ⟨fun _ hr => hr, rfl, rfl, fun _ => rfl, fun _ => rfl, rfl⟩

/-- Settles O52: the two runs are alike but for registers that neither agreed before nor are written, and those keep their values
in both. -/
theorem registerReadsAndWritesAreThoseTabled : Obligations.RegisterReadsAndWritesAreThoseTabled := by
  intro i s w hread
  obtain ⟨t, t', ht, ht', halike⟩ := (alike_withV s w).exec addressRel_eq i hread
  obtain ⟨u, hu, hkeep⟩ := exec_keepsRegs i s
  obtain ⟨u', hu', hkeep'⟩ := exec_keepsRegs i (s.withV w)
  obtain rfl : u = t := by simpa [hu] using ht
  obtain rfl : u' = t' := by simpa [hu'] using ht'
  rw [mayWrite_withV] at hkeep'
  refine ⟨u, u', ht, ht', ?_, fun r => ?_⟩
  · have hrest := halike.rest_of_eq
    rw [← halike.sound trivial] at hrest
    exact hrest
  · cases hr : mayWrite s i r with
    | true => exact .inl ⟨rfl, halike.regs r (.inr hr)⟩
    | false => exact .inr ⟨hkeep' r hr, hkeep r hr⟩

end Sys2Proof.Machine
end

section
/-! The table of 10_state.md R25: `pc` after each instruction. -/

namespace Sys2Proof.Machine

/-! ### `pc` as each operation leaves it -/

/-- The advance and the skip make 4. -/
theorem pc_add_two_add_two (a : Word) : a + 2#16 + 2#16 = a + 4#16 := BitVec.add_assoc a 2 2

theorem advance_rewind_pc (s : State) : s.advance.rewind.pc = s.pc := BitVec.add_sub_cancel s.pc 2

theorem zextAddr_eq_ofNat (nnn : Addr) : zextAddr nnn = BitVec.ofNat 16 nnn.toNat := (BitVec.ofNat_toNat 16 nnn).symm

theorem zextAddr_add_zextByte (nnn : Addr) (b : Byte) :
    zextAddr nnn + zextByte b = BitVec.ofNat 16 (nnn.toNat + b.toNat) := by
  rw [BitVec.ofNat_add, BitVec.ofNat_toNat, BitVec.ofNat_toNat]
  rfl

theorem writeLogic_pc (s : State) (x : Reg) (b : Byte) : (writeLogic s x b).pc = s.pc := by
  rw [writeLogic_eq]; rfl

/-- A draw rewinds exactly where it is held (the spec's decision D10). -/
theorem drawWith_pc (ready : Bool) (x y : Reg) (n : Fin 16) (s : State) :
    (drawWith ready x y n s).pc = if s.config.displayWait = true ∧ ready = false then s.pc - 2 else s.pc := by
  unfold drawWith
  cases s.config.displayWait <;> cases ready <;> rfl

/-! ### Every instruction -/

/-- Every instruction completes with the `pc` of the table, run after the advance of its fetch. -/
theorem exec_pc (i : Instr) (s : State) : ∃ t : State, exec i s.advance = .next t ∧ t.pc = pcAfter i s := by
  cases i with
  | ret =>
    by_cases hsp : s.sp.val = 0
    · exact ⟨_, execRet_of_empty s.advance hsp, by simp [pcAfter, hsp]⟩
    · exact ⟨_, execRet_of_nonempty s.advance (by simp; omega), by simp [pcAfter, hsp]⟩
  | call nnn =>
    by_cases hsp : s.sp.val = 16
    · exact ⟨_, execCall_of_full nnn s.advance hsp, by simp [pcAfter, hsp]⟩
    · exact ⟨_, execCall_of_room nnn s.advance (by simp; omega), by simp [pcAfter, hsp, zextAddr_eq_ofNat]⟩
  | jp nnn => exact ⟨_, rfl, zextAddr_eq_ofNat nnn⟩
  | seImm x nn => exact ⟨_, rfl, by simp [pc_add_two_add_two, pcAfter]⟩
  | sneImm x nn => exact ⟨_, rfl, by simp [pc_add_two_add_two, pcAfter]⟩
  | seReg x y => exact ⟨_, rfl, by simp [pc_add_two_add_two, pcAfter]⟩
  | sneReg x y => exact ⟨_, rfl, by simp [pc_add_two_add_two, pcAfter]⟩
  | skp x =>
    by_cases hx : (s.getV x).toNat < 16
    · exact ⟨_, execSkp_of_key s.advance x _ (keyIndex_of_lt s.advance x hx), by simp [pc_add_two_add_two, pcAfter, hx]⟩
    · exact ⟨_, execSkp_of_none s.advance x (keyIndex_of_ge s.advance x hx), by simp [pcAfter, hx]⟩
  | sknp x =>
    by_cases hx : (s.getV x).toNat < 16
    · refine ⟨_, execSknp_of_key s.advance x _ (keyIndex_of_lt s.advance x hx), ?_⟩
      cases hkey : s.key[(s.getV x).toNat] <;> simp [pc_add_two_add_two, pcAfter, hx, hkey]
    · exact ⟨_, execSknp_of_none s.advance x (keyIndex_of_ge s.advance x hx), by simp [pcAfter, hx]⟩
  | jpOff nnn =>
    refine ⟨_, rfl, ?_⟩
    rw [State.setPc_pc, zextAddr_add_zextByte, offsetReg_eq, State.advance_config]
    cases hb : s.config.bnnn <;> simp [pcAfter, hb]
  | drw x y n => exact ⟨_, rfl, by simp [drawWith_pc, pcAfter]⟩
  | ldVxK x =>
    cases hrel : s.rel with
    | some k => exact ⟨_, execLdVxK_of_some s.advance x k hrel, by simp [pcAfter, hrel]⟩
    | none => exact ⟨_, execLdVxK_of_none s.advance x hrel, by simp [pcAfter, hrel]⟩
  | orReg x y => exact ⟨_, rfl, writeLogic_pc s.advance x _⟩
  | andReg x y => exact ⟨_, rfl, writeLogic_pc s.advance x _⟩
  | xorReg x y => exact ⟨_, rfl, writeLogic_pc s.advance x _⟩
  | stRegs x => exact ⟨_, rfl, by rw [storeRegs_eq]; rfl⟩
  | ldRegs x => exact ⟨_, rfl, by rw [loadRegs_eq]; rfl⟩
  | _ => exact ⟨_, rfl, rfl⟩

/-! ### Every cycle of a running core -/

theorem step_of_decode {s : State} {i : Instr} (hrun : s.halted = false) (hdecode : decode (fetchOp s) = some i) :
    step s = exec i s.advance := by
  simp only [step, hrun, hdecode, Bool.false_eq_true, if_false]

theorem step_of_illegal {s : State} (hrun : s.halted = false) (hdecode : decode (fetchOp s) = none) :
    step s = .next (s.advance.raiseFatal .unknownInstruction (fetchOp s)) := by
  simp only [step, hrun, hdecode, Bool.false_eq_true, if_false]

/-- A key skip halts on a key number above 15 (the spec's decision D12). -/
theorem exec_keySkip_halts {i : Instr} {x : Reg} (hi : i = .skp x ∨ i = .sknp x) (s : State) (h : 15 < (s.getV x).toNat) :
    ∃ op : Word, exec i s = .next (s.raiseFatal .badKeyIndex op) := by
  have hkey : keyIndex s x = none := keyIndex_of_ge s x (by omega)
  obtain rfl | rfl := hi
  · exact ⟨_, execSkp_of_none s x hkey⟩
  · exact ⟨_, execSknp_of_none s x hkey⟩

/-- Settles O11: the column `pc` is `exec_pc`, and the halts are the outcomes of the instructions with a fatal condition. -/
theorem pcAfterEachInstruction : Obligations.PcAfterEachInstruction := by
  intro s hrun
  cases hdecode : decode (fetchOp s) with
  | none => exact ⟨_, step_of_illegal hrun hdecode, ⟨rfl, rfl⟩, by simp, by simp, by simp⟩
  | some i =>
    obtain ⟨t, ht, hpc⟩ := exec_pc i s
    have hhalts {c : FaultCode} {op : Word} (h : exec i s.advance = .next (s.advance.raiseFatal c op)) : t.halted = true := by
      obtain rfl : s.advance.raiseFatal c op = t := by simpa [ht] using h.symm
      rfl
    refine ⟨t, (step_of_decode hrun hdecode).trans ht, hpc, fun hi hsp => ?_, fun nnn hi hsp => ?_, fun x hi hx => ?_⟩
    · obtain rfl := Option.some.inj hi
      exact hhalts (execRet_of_empty s.advance hsp)
    · obtain rfl := Option.some.inj hi
      exact hhalts (execCall_of_full nnn s.advance hsp)
    · obtain ⟨op, hop⟩ := exec_keySkip_halts (hi.imp Option.some.inj Option.some.inj) s.advance hx
      exact hhalts hop

end Sys2Proof.Machine
end

section
/-! The table of 10_state.md R46: what a reset leaves. -/

namespace Sys2Proof.Machine

/-- After a reset every byte reads as the reset image (70_reset_and_hazards.md R291). -/
theorem resetCore_readByte (s : State) (a : Word) : (resetCore s).readByte a = resetByte s.config (memIndex a) := rfl

/-- The font lies below bit 12, so that its addresses are not masked. -/
theorem memIndex_font {c : Config} (hc : c.wf = true) (i : Fin 80) :
    memIndex (BitVec.ofNat 16 (c.fontBase + i.val)) = c.fontBase + i.val := by
  have hbound : c.fontBase + 80 ≤ 512 := of_decide_eq_true hc
  rw [memIndex_eq_mod, BitVec.toNat_ofNat]
  omega

/-- Settles O45: registers, stack, keys and screen are filled with zeros, and a reset lists no byte, so that memory reads as the
reset image. -/
theorem resetGivesTheTabledValues : Obligations.ResetGivesTheTabledValues := by
  intro s hwf
  have hregs (x : Reg) : (resetCore s).getV x = 0 := Vector.getElem_replicate x.isLt
  have hstack (j : Fin 16) : (resetCore s).stack[j] = 0 := Vector.getElem_replicate j.isLt
  have hkeys (k : Key) : (resetCore s).key[k] = false := Vector.getElem_replicate k.isLt
  have hscreen (r : Fin 32) (c : Fin 64) : (resetCore s).pixel r c = false := by
    simp [State.pixel, resetCore]
  have hfont (i : Fin 80) :
      (resetCore s).readByte (BitVec.ofNat 16 (s.config.fontBase + i.val)) = s.config.fontData[i] := by
    rw [resetCore_readByte, memIndex_font hwf, resetByte_font s.config i.val i.isLt]
    rfl
  have hzero (a : Word) (ha : memIndex a < s.config.fontBase ∨ s.config.fontBase + 80 ≤ memIndex a) :
      (resetCore s).readByte a = 0 := resetByte_outside s.config (memIndex a) ha
  exact ⟨hregs, rfl, rfl, rfl, hstack, rfl, rfl, hkeys, rfl, rfl, hscreen, rfl, rfl, rfl, rfl, hfont, hzero, rfl⟩

end Sys2Proof.Machine
end

section
/-! The memory block as data (20_memory.md R60): a canonical list is determined by the bytes it gives. -/

namespace Sys2Proof.Machine

theorem Memory.lookup_cons_self (c : Config) (a : Nat) (v : Byte) (m : Memory) :
    Memory.lookup c ((a, v) :: m) a = v := if_pos rfl

theorem Memory.lookup_cons_of_ne (c : Config) {a b : Nat} (v : Byte) (m : Memory) (h : b ≠ a) :
    Memory.lookup c ((a, v) :: m) b = Memory.lookup c m b := if_neg h

/-- The first byte that a canonical memory lists is none that a memory of higher addresses gives. -/
theorem Memory.lookup_head_ne {c : Config} {a : Nat} {v : Byte} {m m' : Memory}
    (h : Memory.wf c ((a, v) :: m) = true) (hlt : ∀ e ∈ m', a < e.1) :
    Memory.lookup c ((a, v) :: m) a ≠ Memory.lookup c m' a := by
  obtain ⟨-, hv, -, -⟩ := (Memory.wf_cons c a v m).mp h
  rwa [Memory.lookup_cons_self, Memory.lookup_of_lt c m' a hlt]

/-- The lower of two first addresses tells two canonical memories apart. -/
theorem Memory.head_le_of_lookup_eq {c : Config} {a b : Nat} {v w : Byte} {m m' : Memory}
    (h : Memory.wf c ((a, v) :: m) = true) (h' : Memory.wf c ((b, w) :: m') = true)
    (heq : Memory.lookup c ((a, v) :: m) a = Memory.lookup c ((b, w) :: m') a) : b ≤ a := by
  refine Nat.le_of_not_lt fun hab => ?_
  obtain ⟨-, -, hlt, -⟩ := (Memory.wf_cons c b w m').mp h'
  refine Memory.lookup_head_ne h (fun e he => ?_) heq
  obtain rfl | he := List.mem_cons.mp he
  · exact hab
  · exact Nat.lt_trans hab (hlt e he)

/-- Canonical memories that read alike and begin at one address have tails that read alike: at that address both tails read as the
reset image. -/
theorem Memory.lookup_tail_eq {c : Config} {a : Nat} {v w : Byte} {m m' : Memory}
    (h : Memory.wf c ((a, v) :: m) = true) (h' : Memory.wf c ((a, w) :: m') = true) {b : Nat}
    (heq : Memory.lookup c ((a, v) :: m) b = Memory.lookup c ((a, w) :: m') b) :
    Memory.lookup c m b = Memory.lookup c m' b := by
  by_cases hb : b = a
  · subst hb
    obtain ⟨-, -, hlt, -⟩ := (Memory.wf_cons c b v m).mp h
    obtain ⟨-, -, hlt', -⟩ := (Memory.wf_cons c b w m').mp h'
    rw [Memory.lookup_of_lt c m b hlt, Memory.lookup_of_lt c m' b hlt']
  · rwa [Memory.lookup_cons_of_ne c v m hb, Memory.lookup_cons_of_ne c w m' hb] at heq

/-- Settles O55, by induction on the first list: a listed byte is none that its address reads as unlisted, so both lists begin with
one cell, and their tails again read alike. -/
theorem canonicalMemoriesThatReadAlikeAreEqual : Obligations.CanonicalMemoriesThatReadAlikeAreEqual := by
  intro c m m' h h' heq
  induction m generalizing m' with
  | nil =>
    cases m' with
    | nil => rfl
    | cons e m' =>
      obtain ⟨hb, -⟩ := (Memory.wf_cons c e.1 e.2 m').mp h'
      exact absurd (heq e.1 hb).symm (Memory.lookup_head_ne h' (by simp))
  | cons d m ih =>
    obtain ⟨a, v⟩ := d
    obtain ⟨ha, -, -, hm⟩ := (Memory.wf_cons c a v m).mp h
    cases m' with
    | nil => exact absurd (heq a ha) (Memory.lookup_head_ne h (by simp))
    | cons e m' =>
      obtain ⟨b, w⟩ := e
      obtain ⟨hb, -, -, hm'⟩ := (Memory.wf_cons c b w m').mp h'
      obtain rfl : a = b := Nat.le_antisymm (Memory.head_le_of_lookup_eq h' h (heq b hb).symm)
        (Memory.head_le_of_lookup_eq h h' (heq a ha))
      have hvw : v = w := by simpa only [Memory.lookup_cons_self] using heq a ha
      rw [hvw, ih m' hm hm' fun x hx => Memory.lookup_tail_eq h h' (heq x hx)]

end Sys2Proof.Machine
end

section
/-! The column of writes of 20_memory.md R73: every instruction but the two stores leaves the memory as it is. -/

namespace Sys2Proof.Machine

@[simp] theorem writeLogic_mem (s : State) (x : Reg) (b : Byte) : (writeLogic s x b).mem = s.mem := by
  rw [writeLogic_eq]; rfl

@[simp] theorem loadRegs_mem (base : Word) (s : State) (n : Nat) : (loadRegs base s n).mem = s.mem := by
  rw [loadRegs_eq]; rfl

/-- A draw reads the sprite from memory and writes none, performed or held. -/
@[simp] theorem drawWith_mem (ready : Bool) (x y : Reg) (n : Fin 16) (s : State) :
    (drawWith ready x y n s).mem = s.mem := by
  unfold drawWith
  cases s.config.displayWait <;> cases ready <;> rfl

/-- Every instruction but Fx33 and Fx55 completes with the memory it found, on each of its outcomes. -/
theorem exec_mem_of_not_store (i : Instr) (s : State) (hi : isStore i = false) :
    ∃ t : State, exec i s = .next t ∧ t.mem = s.mem := by
  cases i with
  | ldB x => exact absurd hi.symm Bool.false_ne_true
  | stRegs x => exact absurd hi.symm Bool.false_ne_true
  | ret =>
    by_cases hsp : s.sp.val = 0
    · exact ⟨_, execRet_of_empty s hsp, rfl⟩
    · exact ⟨_, execRet_of_nonempty s (by omega), rfl⟩
  | call nnn =>
    by_cases hsp : s.sp.val = 16
    · exact ⟨_, execCall_of_full nnn s hsp, rfl⟩
    · exact ⟨_, execCall_of_room nnn s (by omega), rfl⟩
  | skp x =>
    cases hkey : keyIndex s x with
    | some k => exact ⟨_, execSkp_of_key s x k hkey, s.skipIf_mem _⟩
    | none => exact ⟨_, execSkp_of_none s x hkey, rfl⟩
  | sknp x =>
    cases hkey : keyIndex s x with
    | some k => exact ⟨_, execSknp_of_key s x k hkey, s.skipIf_mem _⟩
    | none => exact ⟨_, execSknp_of_none s x hkey, rfl⟩
  | ldVxK x =>
    cases hrel : s.rel with
    | some k => exact ⟨_, execLdVxK_of_some s x k hrel, rfl⟩
    | none => exact ⟨_, execLdVxK_of_none s x hrel, rfl⟩
  | seImm x nn => exact ⟨_, rfl, s.skipIf_mem _⟩
  | sneImm x nn => exact ⟨_, rfl, s.skipIf_mem _⟩
  | seReg x y => exact ⟨_, rfl, s.skipIf_mem _⟩
  | sneReg x y => exact ⟨_, rfl, s.skipIf_mem _⟩
  | orReg x y => exact ⟨_, rfl, writeLogic_mem s x _⟩
  | andReg x y => exact ⟨_, rfl, writeLogic_mem s x _⟩
  | xorReg x y => exact ⟨_, rfl, writeLogic_mem s x _⟩
  | drw x y n => exact ⟨_, rfl, drawWith_mem _ x y n s⟩
  | ldRegs x => exact ⟨_, rfl, loadRegs_mem s.I s _⟩
  | _ => exact ⟨_, rfl, rfl⟩

/-- Settles O30: neither the list of bytes nor the reset image behind it changes. -/
theorem onlyTwoInstructionsWriteMemory : Obligations.OnlyTwoInstructionsWriteMemory := by
  intro i s t hi ht
  obtain ⟨u, hu, hmem⟩ := exec_mem_of_not_store i s hi
  obtain ⟨u', hu', hconfig⟩ := exec_config i s
  obtain rfl : u = t := by simpa [hu] using ht
  obtain rfl : u' = u := by simpa [hu'] using ht
  exact State.readByte_congr hconfig hmem

end Sys2Proof.Machine
end

section
/-! The bytes that the fetch joins (20_memory.md R70, 30_encoding.md R90): a word is its two bytes, and the two addresses of a fetch
are never one byte. -/

namespace Sys2Proof

@[simp] theorem hiByte_joinBytes (hi lo : Byte) : hiByte (joinBytes hi lo) = hi := by
  have := lo.isLt
  exact BitVec.eq_of_toNat_eq (by rw [hiByte, field_toNat, joinBytes, toNat_append_eq]; omega)

@[simp] theorem loByte_joinBytes (hi lo : Byte) : loByte (joinBytes hi lo) = lo := by
  have := lo.isLt
  exact BitVec.eq_of_toNat_eq (by rw [loByte, field_toNat, joinBytes, toNat_append_eq]; omega)

@[simp] theorem joinBytes_hiByte_loByte (op : Word) : joinBytes (hiByte op) (loByte op) = op := by
  have := op.isLt
  exact BitVec.eq_of_toNat_eq (by rw [joinBytes, toNat_append_eq, hiByte, loByte, field_toNat, field_toNat]; omega)

end Sys2Proof

namespace Sys2Proof.Machine

theorem memIndex_add_one_ne (a : Word) : memIndex (a + 1) ≠ memIndex a := by
  rw [memIndex_eq_mod, memIndex_eq_mod, BitVec.toNat_add]
  show (a.toNat + 1) % 65536 % 4096 ≠ a.toNat % 4096
  omega

theorem hiByte_fetchOp (s : State) : hiByte (fetchOp s) = s.readByte s.pc := hiByte_joinBytes _ _

theorem loByte_fetchOp (s : State) : loByte (fetchOp s) = s.readByte (s.pc + 1) := loByte_joinBytes _ _

end Sys2Proof.Machine
end

section
/-! A store over the next opcode (20_memory.md R81, 42_index_memory.md R175). -/

namespace Sys2Proof.Machine

/-- The at most 16 bytes of a block transfer stand at different addresses. -/
theorem memIndex_dataAddr_ne (base : Word) {j k : Nat} (hj : j < k) (hk : k < 16) :
    memIndex (dataAddr base j) ≠ memIndex (dataAddr base k) := by
  rw [memIndex_eq_mod, memIndex_eq_mod, dataAddr, dataAddr, BitVec.toNat_add, BitVec.toNat_add, BitVec.toNat_ofNat,
    BitVec.toNat_ofNat]
  omega

/-- What the store loop leaves at the address of each register stored, by induction on the loop: a later turn writes another
byte. -/
theorem storeRegs_readByte (base : Word) (s : State) (hwf : Memory.wf s.config s.mem = true) (n : Nat) (hn : n ≤ 16)
    (i : Reg) (hi : i.val < n) (a : Word) (ha : memIndex a = memIndex (dataAddr base i.val)) :
    (storeRegs base s n).readByte a = s.getV i := by
  induction n with
  | zero => exact absurd hi (Nat.not_lt_zero _)
  | succ n ih =>
    rw [storeRegs_readByte_succ base s n a hwf]
    by_cases hin : i.val = n
    · have hreg : Fin.ofNat 16 n = i := Fin.ext (by rw [← hin]; exact Nat.mod_eq_of_lt i.isLt)
      rw [if_pos (by rw [ha, hin]), hreg]
    · have hlt : i.val < n := by omega
      rw [if_neg (by rw [ha]; exact memIndex_dataAddr_ne base hlt (by omega))]
      exact ih (by omega) hlt

@[simp] theorem storeRegs_pc (base : Word) (s : State) (n : Nat) : (storeRegs base s n).pc = s.pc := by
  rw [storeRegs_eq]; rfl

/-- Settles O29: the fetch reads memory at `pc` and `pc + 1`, where the store has left the register. -/
theorem storeIsSeenByTheNextFetch : Obligations.StoreIsSeenByTheNextFetch := by
  intro x i s t hwf ht hi
  obtain rfl : (storeRegs s.I s (x.val + 1)).setI (indexAfterBlock s x) = t := by simpa [exec, execStRegs] using ht
  have hread (a : Word) : memIndex a = memIndex (dataAddr s.I i.val) →
      (storeRegs s.I s (x.val + 1)).readByte a = s.getV i :=
    storeRegs_readByte s.I s hwf _ (by omega) i (Nat.lt_succ_of_le hi) a
  simp only [hiByte_fetchOp, loByte_fetchOp, State.setI_pc, State.readByte_setI, storeRegs_pc]
  exact ⟨hread s.pc, hread (s.pc + 1)⟩

end Sys2Proof.Machine
end

section
/-! A table word placed at `pc` (log 9): what is placed, what is fetched, and what is left alone. -/

namespace Sys2Proof

/-- A table word of 16 bits is the opcode itself (log 15). -/
theorem tableWord_sixteen (w : Nat) : tableWord 16 w = BitVec.ofNat 16 w :=
  BitVec.eq_of_toNat_eq (by simp [tableWord])

/-- The host's decoder of 16-bit words is the decoder of opcodes. -/
theorem decodeTableWord_of_decode {w : Nat} {i : Instr} (h : decode (BitVec.ofNat 16 w) = some i) :
    decodeTableWord 16 w = some i := by
  simp only [decodeTableWord, decodeBytes, joinBytes_hiByte_loByte, tableWord_sixteen, h]

end Sys2Proof

namespace Sys2Proof.Machine

section
variable (s : State) (op : Word)

theorem placeOp_of_running (h : s.halted = false) : placeOp s op = s.writeBytes s.pc [hiByte op, loByte op] := by
  simp [placeOp, State.writeBytes, h]

theorem placeOp_of_halted (h : s.halted = true) :
    placeOp s op = (s.writeBytes s.pc [hiByte op, loByte op]).clearLatch := by
  simp [placeOp, State.writeBytes, h]

/-- Placing takes the core out of a halt. -/
@[simp] theorem placeOp_halted : (placeOp s op).halted = false := by
  cases h : s.halted with
  | false => rw [placeOp_of_running s op h]; exact h
  | true => rw [placeOp_of_halted s op h]; rfl

@[simp] theorem placeOp_pc : (placeOp s op).pc = s.pc := by
  cases h : s.halted with
  | false => rw [placeOp_of_running s op h]; rfl
  | true => rw [placeOp_of_halted s op h]; rfl

/-- Placing touches memory by the two byte writes alone, halted or not. -/
theorem placeOp_readByte_eq (a : Word) :
    (placeOp s op).readByte a = ((s.writeByte s.pc (hiByte op)).writeByte (s.pc + 1) (loByte op)).readByte a := by
  cases h : s.halted with
  | false => rw [placeOp_of_running s op h]; rfl
  | true => rw [placeOp_of_halted s op h]; rfl

/-- Every byte after an opcode is placed. -/
theorem placeOp_readByte (hwf : Memory.wf s.config s.mem = true) (a : Word) :
    (placeOp s op).readByte a =
      if memIndex a = memIndex (s.pc + 1) then loByte op
      else if memIndex a = memIndex s.pc then hiByte op else s.readByte a := by
  rw [placeOp_readByte_eq, State.readByte_writeByte _ _ _ _ (s.writeByte_wf s.pc (hiByte op) hwf),
    s.readByte_writeByte _ _ _ hwf]

/-- The opcode placed is the opcode fetched. -/
theorem fetchOp_placeOp (hwf : Memory.wf s.config s.mem = true) : fetchOp (placeOp s op) = op := by
  rw [fetchOp, State.readWord, placeOp_pc, placeOp_readByte s op hwf, placeOp_readByte s op hwf,
    if_neg (memIndex_add_one_ne s.pc).symm, if_pos rfl, if_pos rfl, joinBytes_hiByte_loByte]

end

/-- Settles O6: the placed opcode is fetched by a running core and decodes to `i`, and placing is two byte writes. -/
theorem placedWordIsFetchedAndExecuted : Obligations.PlacedWordIsFetchedAndExecuted := by
  intro w i s hwf hdecode
  rw [State.withFetchWord, tableWord_sixteen]
  refine ⟨decodeTableWord_of_decode hdecode, ?_, fun hrun => ?_, fun a hhi hlo => ?_⟩
  · exact step_of_decode (placeOp_halted s _) (by rw [fetchOp_placeOp s _ hwf, hdecode])
  · rw [placeOp_of_running s _ hrun, State.writeBytes_eq]
    exact onlyChanges_withMem s _
  · rw [placeOp_readByte s _ hwf, if_neg hlo, if_neg hhi]

end Sys2Proof.Machine
end

section
/-! The decoder and the encoder are inverse to each other (30_encoding.md R91 to R93, R100). -/

namespace Sys2Proof

/-! ### From an instruction to its word and back -/

theorem opN_packXYN_nibble (f : BitVec 4) (x y : Reg) (n : Fin 16) : opN (packXYN f x y (nibble n)) = n := by
  rw [opN, opLow_packXYN]
  rfl

/-- Settles O1, by cases on the instruction, grouped by the format of its word: the selecting fields of a packed word are those it
was packed from, and so are its operands. -/
theorem decodeOfEncodeIsTheInstruction : Obligations.DecodeOfEncodeIsTheInstruction := by
  intro i
  cases i with
  | cls | ret => decide
  | jp nnn | call nnn | ldI nnn | jpOff nnn =>
    simp only [encode, decode, opFamily_packNNN, opNNN_packNNN]
  | seImm x nn | sneImm x nn | ldImm x nn | addImm x nn | rnd x nn =>
    simp only [encode, decode, opFamily_packXNN, opX_packXNN, opNN_packXNN]
  | drw x y n =>
    simp only [encode, decode, opFamily_packXYN, opX_packXYN, opY_packXYN, opN_packXYN_nibble]
  | seReg x y | sneReg x y =>
    simp only [encode, decode, opFamily_packXYN, opLow_packXYN, opX_packXYN, opY_packXYN, if_true]
  | ldReg x y | orReg x y | andReg x y | xorReg x y | addReg x y | sub x y | shr x y | subn x y | shl x y =>
    simp [encode, decode, decodeFamily8, opFamily_packXYN, opLow_packXYN, opX_packXYN, opY_packXYN]
  | skp x | sknp x =>
    simp [encode, decode, decodeFamilyE, opFamily_packXNN, opX_packXNN, opNN_packXNN]
  | ldVxDt x | ldVxK x | ldDtVx x | ldStVx x | addI x | ldF x | ldB x | stRegs x | ldRegs x =>
    simp [encode, decode, decodeFamilyF, opFamily_packXNN, opX_packXNN, opNN_packXNN]

/-! ### A word is its fields, packed -/

section
variable {op : Word} {f : BitVec 4} (hf : opFamily op = f)
include hf

theorem packNNN_of_fields : packNNN f (opNNN op) = op := by
  refine BitVec.eq_of_toNat_eq ?_
  rw [← hf, packNNN_toNat, opFamily_toNat, opNNN_toNat]
  omega

theorem packXNN_of_fields {nn : Byte} (hnn : opNN op = nn) : packXNN f (opX op) nn = op := by
  refine BitVec.eq_of_toNat_eq ?_
  rw [← hf, ← hnn, packXNN_toNat, opFamily_toNat, opX_val, opNN_toNat]
  omega

theorem packXYN_of_fields {n : BitVec 4} (hn : opLow op = n) : packXYN f (opX op) (opY op) n = op := by
  refine BitVec.eq_of_toNat_eq ?_
  rw [← hf, ← hn, packXYN_toNat, opFamily_toNat, opX_val, opY_val, opLow_toNat]
  omega

end

/-! ### From a word to its instruction and back -/

section
variable {op : Word} {i : Instr}

theorem encode_of_decodeFamily0 (hf : opFamily op = 0x0#4) (h : decodeFamily0 op = some i) : encode i = op := by
  unfold decodeFamily0 at h
  have hop := packNNN_of_fields hf
  split_ifs at h with hnnn hnnn <;> rw [hnnn] at hop <;> exact Option.some.inj h ▸ hop

theorem encode_of_decodeFamily8 (hf : opFamily op = 0x8#4) (h : decodeFamily8 op = some i) : encode i = op := by
  unfold decodeFamily8 at h
  split_ifs at h with hn hn hn hn hn hn hn hn hn <;> exact Option.some.inj h ▸ packXYN_of_fields hf hn

theorem encode_of_decodeFamilyE (hf : opFamily op = 0xE#4) (h : decodeFamilyE op = some i) : encode i = op := by
  unfold decodeFamilyE at h
  split_ifs at h with hnn hnn <;> exact Option.some.inj h ▸ packXNN_of_fields hf hnn

theorem encode_of_decodeFamilyF (hf : opFamily op = 0xF#4) (h : decodeFamilyF op = some i) : encode i = op := by
  unfold decodeFamilyF at h
  split_ifs at h with hnn hnn hnn hnn hnn hnn hnn hnn hnn <;>
    exact Option.some.inj h ▸ packXNN_of_fields hf hnn

end

/-- Settles O2, by the branches of the decoder: each reads its operands from the fields that the format packs, and the selecting
fields are what the branch tests. -/
theorem encodeOfDecodeIsTheWord : Obligations.EncodeOfDecodeIsTheWord := by
  intro op i h
  unfold decode at h
  split at h
  next hf => exact encode_of_decodeFamily0 hf h
  next hf => exact Option.some.inj h ▸ packNNN_of_fields hf
  next hf => exact Option.some.inj h ▸ packNNN_of_fields hf
  next hf => exact Option.some.inj h ▸ packXNN_of_fields hf rfl
  next hf => exact Option.some.inj h ▸ packXNN_of_fields hf rfl
  next hf =>
    split_ifs at h with hn
    exact Option.some.inj h ▸ packXYN_of_fields hf hn
  next hf => exact Option.some.inj h ▸ packXNN_of_fields hf rfl
  next hf => exact Option.some.inj h ▸ packXNN_of_fields hf rfl
  next hf => exact encode_of_decodeFamily8 hf h
  next hf =>
    split_ifs at h with hn
    exact Option.some.inj h ▸ packXYN_of_fields hf hn
  next hf => exact Option.some.inj h ▸ packNNN_of_fields hf
  next hf => exact Option.some.inj h ▸ packNNN_of_fields hf
  next hf => exact Option.some.inj h ▸ packXNN_of_fields hf rfl
  next hf => exact Option.some.inj h ▸ packXYN_of_fields hf rfl
  next hf => exact encode_of_decodeFamilyE hf h
  next hf => exact encode_of_decodeFamilyF hf h
  next => cases h

end Sys2Proof
end

section
/-! Which words are no instruction (30_encoding.md R105), by their fields and as numbers. -/

namespace Sys2Proof

/-! ### The families that a second field selects in -/

theorem decodeFamily0_eq_none_iff (op : Word) :
    decodeFamily0 op = none ↔ opNNN op ≠ 0x0E0#12 ∧ opNNN op ≠ 0x0EE#12 := by
  simp [decodeFamily0, ite_eq_iff]

theorem decodeFamily8_eq_none_iff (op : Word) :
    decodeFamily8 op = none ↔ opLow op ∈ [0x8#4, 0x9#4, 0xA#4, 0xB#4, 0xC#4, 0xD#4, 0xF#4] := by
  have hrest : ∀ n : BitVec 4, n ∈ [0x8#4, 0x9#4, 0xA#4, 0xB#4, 0xC#4, 0xD#4, 0xF#4] ↔
      n ∉ [0x0#4, 0x1#4, 0x2#4, 0x3#4, 0x4#4, 0x5#4, 0x6#4, 0x7#4, 0xE#4] := by decide
  rw [hrest]
  simp [decodeFamily8, ite_eq_iff]

theorem decodeFamilyE_eq_none_iff (op : Word) : decodeFamilyE op = none ↔ opNN op ∉ [0x9E#8, 0xA1#8] := by
  simp [decodeFamilyE, ite_eq_iff]

theorem decodeFamilyF_eq_none_iff (op : Word) :
    decodeFamilyF op = none ↔
      opNN op ∉ [0x07#8, 0x0A#8, 0x15#8, 0x18#8, 0x1E#8, 0x29#8, 0x33#8, 0x55#8, 0x65#8] := by
  simp [decodeFamilyF, ite_eq_iff]

/-! ### The whole list -/

/-- The sixteen families, so that the decoder's last branch is never taken. -/
theorem mem_families (f : BitVec 4) :
    f ∈ [0x0#4, 0x1#4, 0x2#4, 0x3#4, 0x4#4, 0x5#4, 0x6#4, 0x7#4, 0x8#4, 0x9#4, 0xA#4, 0xB#4, 0xC#4, 0xD#4, 0xE#4,
      0xF#4] := by
  revert f
  decide

/-- The list of R105 over the fields of the opcode. -/
theorem decode_eq_none_iff (op : Word) :
    decode op = none ↔
      (opFamily op = 0x0#4 ∧ opNNN op ≠ 0x0E0#12 ∧ opNNN op ≠ 0x0EE#12) ∨
      (opFamily op = 0x5#4 ∧ opLow op ≠ 0x0#4) ∨
      (opFamily op = 0x8#4 ∧ opLow op ∈ [0x8#4, 0x9#4, 0xA#4, 0xB#4, 0xC#4, 0xD#4, 0xF#4]) ∨
      (opFamily op = 0x9#4 ∧ opLow op ≠ 0x0#4) ∨
      (opFamily op = 0xE#4 ∧ opNN op ∉ [0x9E#8, 0xA1#8]) ∨
      (opFamily op = 0xF#4 ∧
        opNN op ∉ [0x07#8, 0x0A#8, 0x15#8, 0x18#8, 0x1E#8, 0x29#8, 0x33#8, 0x55#8, 0x65#8]) := by
  rw [← decodeFamily0_eq_none_iff, ← decodeFamily8_eq_none_iff, ← decodeFamilyE_eq_none_iff,
    ← decodeFamilyF_eq_none_iff]
  unfold decode
  split
  case h_17 =>
    have hfam := mem_families (opFamily op)
    simp_all
  all_goals
    next hf => simp [hf]

/-! ### What a word's legality depends on -/

section
variable {op op' : Word}

theorem decode_ne_none_of_family (hf : opFamily op ∉ [0x0#4, 0x5#4, 0x8#4, 0x9#4, 0xE#4, 0xF#4]) : decode op ≠ none := by
  simp only [List.mem_cons, not_or] at hf
  simp [decode_eq_none_iff, hf]

/-- In families 5, 8 and 9 the low nibble settles whether a word is legal. -/
theorem decode_eq_none_iff_of_low (hf : opFamily op ∈ [0x5#4, 0x8#4, 0x9#4]) (hfam : opFamily op = opFamily op')
    (hlow : opLow op = opLow op') : decode op = none ↔ decode op' = none := by
  rw [decode_eq_none_iff, decode_eq_none_iff, hlow, hfam]
  rw [hfam] at hf
  simp only [List.mem_cons, List.not_mem_nil, or_false] at hf
  obtain hf | hf | hf := hf <;> simp [hf]

/-- In families E and F the low byte settles whether a word is legal. -/
theorem decode_eq_none_iff_of_lowByte (hf : opFamily op ∈ [0xE#4, 0xF#4]) (hfam : opFamily op = opFamily op')
    (hnn : opNN op = opNN op') : decode op = none ↔ decode op' = none := by
  rw [decode_eq_none_iff, decode_eq_none_iff, hnn, hfam]
  rw [hfam] at hf
  simp only [List.mem_cons, List.not_mem_nil, or_false] at hf
  obtain hf | hf := hf <;> simp [hf]

end

/-- Settles O4: the list over the fields, each field read as a number. Only in family 0 do the two lists differ, where the whole
word is its low twelve bits. -/
theorem illegalOpcodesAreExactlyThoseListed : Obligations.IllegalOpcodesAreExactlyThoseListed := by
  intro op
  rw [decode_eq_none_iff]
  simp only [← BitVec.toNat_inj, opFamily_toNat, opLow_toNat, opNN_toNat, opNNN_toNat, List.mem_cons, List.not_mem_nil,
    ne_eq, BitVec.toNat_ofNat, Nat.reducePow, Nat.reduceMod]
  refine or_congr ?_ Iff.rfl
  omega

end Sys2Proof
end

section
/-! The decoder against the opcode table (30_encoding.md R94, R100). -/

namespace Sys2Proof

/-- An instruction's row is one of the table's and covers its encoding (the laws of Laws/PerInstr.lean, one for each). -/
theorem Laws.EncodingRow.mem_and_rowCovers (i : Instr) :
    opcodeRow i ∈ opcodeTable ∧ rowCovers (opcodeRow i) (encode i) = true := by
  cases i
  exacts [cls, ret, jp _, call _, seImm _ _, sneImm _ _, seReg _ _, ldImm _ _, addImm _ _, ldReg _ _, orReg _ _, andReg _ _,
    xorReg _ _, addReg _ _, sub _ _, shr _ _, subn _ _, shl _ _, sneReg _ _, ldI _, jpOff _, rnd _ _, drw _ _ _, skp _, sknp _,
    ldVxDt _, ldVxK _, ldDtVx _, ldStVx _, addI _, ldF _, ldB _, stRegs _, ldRegs _]

theorem rowCovers_iff {r : OpcodeRow} {op : Word} : rowCovers r op = true ↔ op &&& r.1 = r.2 := decide_eq_true_iff

/-! ### The table's rows -/

/-- The mask of a row is settled by the family of its match word: all bits in family 0, else the family and what selects in it. -/
theorem opcodeTable_masks : ∀ r ∈ opcodeTable,
    r.1 = 0xFFFF ∨ (r.1 = 0xF000 ∧ opFamily r.2 ∉ [0x0#4, 0x5#4, 0x8#4, 0x9#4, 0xE#4, 0xF#4]) ∨
    (r.1 = 0xF00F ∧ opFamily r.2 ∈ [0x5#4, 0x8#4, 0x9#4]) ∨ (r.1 = 0xF0FF ∧ opFamily r.2 ∈ [0xE#4, 0xF#4]) := by
  rw [← List.all_iff_forall_prop]
  decide

theorem decode_match_ne_none : ∀ r ∈ opcodeTable, decode r.2 ≠ none := by
  rw [← List.all_iff_forall_prop]
  decide

/-- Two rows with one match on the bits that both masks keep are the same row. -/
theorem opcodeTable_apart : ∀ r ∈ opcodeTable, ∀ q ∈ opcodeTable, r.2 &&& q.1 = q.2 &&& r.1 → r = q := by
  simp only [← List.all_iff_forall_prop]
  decide

/-! ### Covered words -/

section
variable {r q : OpcodeRow} {op : Word}

theorem row_eq_of_rowCovers (hr : r ∈ opcodeTable) (hq : q ∈ opcodeTable) (hrop : rowCovers r op = true)
    (hqop : rowCovers q op = true) : r = q := by
  refine opcodeTable_apart r hr q hq ?_
  rw [← rowCovers_iff.mp hrop, ← rowCovers_iff.mp hqop, BitVec.and_assoc, BitVec.and_comm r.1, ← BitVec.and_assoc]

/-- A covered word decodes as the row's match word does: they agree in the family and in what selects in it. -/
theorem decode_ne_none_of_rowCovers (hr : r ∈ opcodeTable) (hrop : rowCovers r op = true) : decode op ≠ none := by
  have hlegal := decode_match_ne_none r hr
  have hop := rowCovers_iff.mp hrop
  obtain hm | ⟨hm, hf⟩ | ⟨hm, hf⟩ | ⟨hm, hf⟩ := opcodeTable_masks r hr
  · have hall : op &&& 0xFFFF = op := BitVec.and_allOnes
    rwa [← hop, hm, hall] at hlegal
  · rw [← hop, hm, and_familyMask, opFamily_packNNN] at hf
    exact decode_ne_none_of_family hf
  · have hfam : opFamily r.2 = opFamily op := by rw [← hop, hm, and_subMask, opFamily_packXYN]
    have hlow : opLow r.2 = opLow op := by rw [← hop, hm, and_subMask, opLow_packXYN]
    rwa [Ne, ← decode_eq_none_iff_of_low hf hfam hlow]
  · have hfam : opFamily r.2 = opFamily op := by rw [← hop, hm, and_lowByteMask, opFamily_packXNN]
    have hnn : opNN r.2 = opNN op := by rw [← hop, hm, and_lowByteMask, opNN_packXNN]
    rwa [Ne, ← decode_eq_none_iff_of_lowByte hf hfam hnn]

end

/-- A word that decodes is covered by the row of its instruction, whose encoding it is. -/
theorem rowCovers_of_decode {op : Word} {i : Instr} (h : decode op = some i) :
    opcodeRow i ∈ opcodeTable ∧ rowCovers (opcodeRow i) op = true :=
  encodeOfDecodeIsTheWord op i h ▸ Laws.EncodingRow.mem_and_rowCovers i

/-- Settles O3: a word that decodes is covered by its instruction's row, a covered word decodes, and two rows that cover one word
are the same. -/
theorem decoderFollowsTheOpcodeTable : Obligations.DecoderFollowsTheOpcodeTable := by
  refine ⟨rfl, fun op i h => ?_, fun op => ⟨fun hnone => ?_, fun hnone r hr => ?_⟩, fun op r q => row_eq_of_rowCovers⟩
  · obtain ⟨hmem, hcov⟩ := rowCovers_of_decode h
    exact ⟨hmem, rowCovers_iff.mp hcov⟩
  · refine Option.eq_none_iff_forall_not_mem.mpr fun i h => ?_
    obtain ⟨hmem, hcov⟩ := rowCovers_of_decode h
    simp [hnone _ hmem] at hcov
  · exact Bool.eq_false_iff.mpr fun hcov => decode_ne_none_of_rowCovers hr hcov hnone

end Sys2Proof
end

section
/-! Fixed words, and the cycle that decodes the word fetched (30_encoding.md R90, 50_host_interface.md R232). -/

namespace Sys2Proof

/-- Settles O5: ten closed words, each decoded. -/
theorem wordsOfTheSpecDecodeToTheirInstructions : Obligations.WordsOfTheSpecDecodeToTheirInstructions := by
  unfold Obligations.WordsOfTheSpecDecodeToTheirInstructions
  decide

end Sys2Proof

namespace Sys2Proof.Machine

theorem step_of_halted {s : State} (h : s.halted = true) : step s = .next s := by
  rw [step, if_pos h]

/-- Settles O7: the three branches of `step`; the fetched word is the two bytes joined. -/
theorem stepRunsTheDecodedInstruction : Obligations.StepRunsTheDecodedInstruction := fun _ =>
  ⟨step_of_halted, fun hrun _ => step_of_decode hrun, step_of_illegal⟩

end Sys2Proof.Machine
end

section
/-! The stack discipline (10_state.md R34, R35; 40_flow.md R120, R122): what CALL and RET do to `pc` and the stack, and how the
returns undo the calls. -/

namespace Sys2Proof.Machine

/-! ### One CALL, one RET -/

/-- The frame of every operation on `pc` and the stack. -/
theorem onlyChanges_pc_stack (s : State) (w : Word) (p : Fin 17) (k : Vector Word 16) :
    OnlyChanges [.pc, .stack] s { s with pc := w, sp := p, stack := k } := by
  intro part hpart
  have hsame := Unchanged.refl part s
  cases part with
  | pc | stack => simp at hpart
  | _ => exact hsame

theorem encode_call (nnn : Addr) : encode (.call nnn) = BitVec.ofNat 16 (0x2000 + nnn.toNat) :=
  BitVec.eq_of_toNat_eq (by simp only [encode, packNNN_toNat, BitVec.toNat_ofNat]; omega)

theorem exec_call_of_room (nnn : Addr) (s : State) (h : s.sp.val < 16) : ∃ t : State, exec (.call nnn) s = .next t ∧
    t.pc = BitVec.ofNat 16 nnn.toNat ∧ t.sp.val = s.sp.val + 1 ∧
    (∀ j : Fin 16, t.stack[j] = if j.val = s.sp.val then s.pc else s.stack[j]) ∧ OnlyChanges [.pc, .stack] s t := by
  refine ⟨_, execCall_of_room nnn s h, zextAddr_eq_ofNat nnn, rfl, fun j => ?_, onlyChanges_pc_stack s _ _ _⟩
  simp only [Fin.getElem_fin, Vector.getElem_set, eq_comm]

theorem exec_ret_of_nonempty (s : State) (h : 0 < s.sp.val) : ∃ t : State, exec .ret s = .next t ∧
    (∀ j : Fin 16, j.val + 1 = s.sp.val → t.pc = s.stack[j]) ∧ t.sp.val + 1 = s.sp.val ∧ t.stack = s.stack ∧
    OnlyChanges [.pc, .stack] s t := by
  refine ⟨_, execRet_of_nonempty s h, fun j hj => ?_, Nat.sub_add_cancel h, rfl, onlyChanges_pc_stack s _ _ _⟩
  simp only [← hj, Nat.add_sub_cancel, Fin.getElem_fin]

/-- Settles O14, by whether the stack is full. -/
theorem callPushesTheReturnAddress : Obligations.CallPushesTheReturnAddress := by
  intro nnn s
  split
  · next hfull => rw [← encode_call]; exact execCall_of_full nnn s hfull
  · exact exec_call_of_room nnn s (by omega)

/-- Settles O15, by whether the stack is empty. -/
theorem returnPopsIntoPc : Obligations.ReturnPopsIntoPc := by
  intro s
  split
  · next hempty => exact execRet_of_empty s hempty
  · exact exec_ret_of_nonempty s (by omega)

/-! ### Execute phases in a row -/

theorem runExec_append (l m : List Instr) (s : State) : runExec (l ++ m) s = runExec m (runExec l s) := List.foldl_append

theorem runExec_cons_of_next {i : Instr} {s t : State} (h : exec i s = .next t) (l : List Instr) :
    runExec (i :: l) s = runExec l t := by
  simp only [runExec, List.foldl_cons, h]

/-- `t` is back where `s` was: `pc`, `sp` and every entry in use are those of `s`. The entries above, which a pop does not clear,
may differ. -/
structure ReturnedTo (s t : State) : Prop where
  pc : t.pc = s.pc
  sp : t.sp.val = s.sp.val
  stack : ∀ j : Fin 16, j.val < s.sp.val → t.stack[j] = s.stack[j]
  frame : OnlyChanges [.pc, .stack] s t

theorem ReturnedTo.refl (s : State) : ReturnedTo s s := ⟨rfl, rfl, fun _ _ => rfl, .refl _ s⟩

/-- A RET that finds the stack as a CALL left it undoes the CALL: the entry it pops is in use after the CALL. -/
theorem ReturnedTo.of_call_ret {nnn : Addr} {s t u : State} (hroom : s.sp.val < 16) (hcall : exec (.call nnn) s = .next t)
    (hback : ReturnedTo t u) : ∃ v : State, exec .ret u = .next v ∧ ReturnedTo s v := by
  obtain ⟨t', ht', -, hsp, hstack, hframe⟩ := exec_call_of_room nnn s hroom
  obtain rfl : t' = t := by simpa [hcall] using ht'.symm
  have husp : u.sp.val = s.sp.val + 1 := hback.sp.trans hsp
  obtain ⟨v, hret, hpc, hvsp, hvstack, hvframe⟩ := exec_ret_of_nonempty u (by omega)
  refine ⟨v, hret, ?_, by omega, fun j hj => ?_, (hframe.trans hback.frame).trans hvframe⟩
  · have htop := hback.stack ⟨s.sp.val, hroom⟩ (by rw [hsp]; exact Nat.lt_succ_self _)
    rw [hpc ⟨s.sp.val, hroom⟩ husp.symm, htop, hstack, if_pos rfl]
  · rw [hvstack, hback.stack j (by omega), hstack, if_neg (by omega)]

/-- Nested calls and as many returns, by induction on the calls: the first call is undone by the last return. -/
theorem returnedTo_runExec_calls_rets (ts : List Addr) : ∀ s : State, s.sp.val + ts.length ≤ 16 →
    ReturnedTo s (runExec (ts.map .call ++ List.replicate ts.length .ret) s) := by
  induction ts with
  | nil => exact fun s _ => .refl s
  | cons nnn ts ih =>
    intro s hfit
    rw [List.length_cons] at hfit
    obtain ⟨t, hcall, -, hsp, -, -⟩ := exec_call_of_room nnn s (by omega)
    obtain ⟨v, hret, hv⟩ := ReturnedTo.of_call_ret (by omega) hcall (ih t (by omega))
    rw [List.length_cons, List.replicate_succ', ← List.append_assoc, runExec_append, List.map_cons, List.cons_append,
      runExec_cons_of_next hcall, runExec_cons_of_next hret]
    exact hv

theorem runExec_calls (ts : List Addr) : ∀ s : State, s.sp.val + ts.length ≤ 16 →
    (runExec (ts.map .call) s).sp.val = s.sp.val + ts.length ∧ OnlyChanges [.pc, .stack] s (runExec (ts.map .call) s) := by
  induction ts with
  | nil => exact fun s _ => ⟨rfl, .refl _ s⟩
  | cons nnn ts ih =>
    intro s hfit
    rw [List.length_cons] at hfit
    obtain ⟨t, hcall, -, hsp, -, hframe⟩ := exec_call_of_room nnn s (by omega)
    obtain ⟨hsp', hframe'⟩ := ih t (by omega)
    rw [List.map_cons, runExec_cons_of_next hcall, List.length_cons]
    exact ⟨by omega, hframe.trans hframe'⟩

/-- The first `n` calls run first, then the other calls and what follows them. -/
theorem runExec_calls_split (ts : List Addr) (n : Nat) (l : List Instr) (s : State) :
    runExec (ts.map .call ++ l) s = runExec ((ts.drop n).map .call ++ l) (runExec ((ts.take n).map .call) s) := by
  rw [← runExec_append, ← List.append_assoc, ← List.map_append, List.take_append_drop]

/-- Settles O16: `k` returns undo the last `k` calls, and all of them find the stack as it was before the first call. -/
theorem returnsUndoNestedCalls : Obligations.ReturnsUndoNestedCalls := by
  intro ts s hfit
  refine ⟨fun k hk => ?_, fun hempty => ?_⟩
  · have htake : (ts.take (ts.length - k)).length = ts.length - k := List.length_take_of_le (Nat.sub_le _ _)
    have hdrop : (ts.drop (ts.length - k)).length = k := by rw [List.length_drop]; omega
    obtain ⟨hsp, hframe⟩ := runExec_calls (ts.take (ts.length - k)) s (by omega)
    have hback := returnedTo_runExec_calls_rets (ts.drop (ts.length - k))
      (runExec ((ts.take (ts.length - k)).map .call) s) (by omega)
    rw [hdrop, ← runExec_calls_split] at hback
    have hsp' := hback.sp
    exact ⟨hback.pc, by omega, hframe.trans hback.frame⟩
  · exact execRet_of_empty _ ((returnedTo_runExec_calls_rets ts s hfit).sp.trans hempty)

end Sys2Proof.Machine
end

section
/-! The register skips and the jumps (40_flow.md R121, R123 to R127). -/

namespace Sys2Proof.Machine

theorem skipIf_beq (s : State) (a b : Byte) : s.skipIf (a == b) = { s with pc := if a = b then s.pc + 2 else s.pc } := by
  by_cases h : a = b
  · rw [if_pos h, beq_iff_eq.mpr h]; rfl
  · rw [if_neg h, beq_eq_false_iff_ne.mpr h]; rfl

theorem skipIf_bne (s : State) (a b : Byte) : s.skipIf (a != b) = { s with pc := if a = b then s.pc else s.pc + 2 } := by
  by_cases h : a = b
  · rw [if_pos h, bne_eq_false_iff_eq.mpr h]; rfl
  · rw [if_neg h, bne_iff_ne.mpr h]; rfl

/-- Settles O12: each skip is `skipIf` under its comparison. -/
theorem skipsMovePcByTwoWhenTaken : Obligations.SkipsMovePcByTwoWhenTaken := fun x y nn s =>
  have next {t u : State} (h : t = u) : (.next t : Result) = .next u := congrArg _ h
  ⟨next (skipIf_beq s (s.getV x) nn), next (skipIf_bne s (s.getV x) nn),
    next (skipIf_beq s (s.getV x) (s.getV y)), next (skipIf_bne s (s.getV x) (s.getV y))⟩

/-- Settles O13: each jump is `setPc`; its target is the number the statement writes. -/
theorem jumpsSetPc : Obligations.JumpsSetPc := fun nnn s => by
  rw [← offsetReg_eq, ← zextAddr_add_zextByte, ← zextAddr_eq_ofNat]
  exact ⟨rfl, rfl⟩

end Sys2Proof.Machine
end

section
/-! What an ALU instruction leaves outside the registers it writes, and its results and flags as numbers (10_state.md R28;
41_alu.md R142, R153). -/

namespace Sys2Proof.Machine

/-! ### One register written -/

theorem State.getV_setV_self (s : State) (x : Reg) (b : Byte) : (s.setV x b).getV x = b := by
  rw [State.getV_setV, if_pos rfl]

theorem sameRegsBut_setV (s : State) (x : Reg) (b : Byte) : SameRegsBut x s (s.setV x b) := fun r hr => by
  rw [State.getV_setV, if_neg hr]

theorem onlyChanges_setV (s : State) (x : Reg) (b : Byte) : OnlyChanges [.regs] s (s.setV x b) := onlyChanges_withV s _

/-! ### A result and a flag written -/

theorem onlyChanges_writeResultThenFlag (s : State) (x : Reg) (a f : Byte) :
    OnlyChanges [.regs] s (writeResultThenFlag s x a f) := onlyChanges_withV s _

theorem onlyChanges_writeFlagThenResult (s : State) (x : Reg) (f a : Byte) :
    OnlyChanges [.regs] s (writeFlagThenResult s x f a) := onlyChanges_withV s _

theorem onlyChanges_writeLogic (s : State) (x : Reg) (a : Byte) : OnlyChanges [.regs] s (writeLogic s x a) := by
  rw [writeLogic_eq]
  exact onlyChanges_withV s _

theorem writeResultThenFlag_getV_toNat (s : State) (x r : Reg) (a f : Byte) :
    ((writeResultThenFlag s x a f).getV r).toNat =
      if r = VF then f.toNat else if r = x then a.toNat else (s.getV r).toNat := by
  rw [writeResultThenFlag_getV, apply_ite BitVec.toNat, apply_ite BitVec.toNat]

theorem writeFlagThenResult_getV_toNat (s : State) (x r : Reg) (f a : Byte) :
    ((writeFlagThenResult s x f a).getV r).toNat =
      if r = x then a.toNat else if r = VF then f.toNat else (s.getV r).toNat := by
  rw [writeFlagThenResult_getV, apply_ite BitVec.toNat, apply_ite BitVec.toNat]

/-! ### Flags as numbers -/

theorem flagByte_decide_toNat (p : Prop) [Decidable p] : (flagByte (decide p)).toNat = if p then 1 else 0 := by
  by_cases h : p <;> simp [flagByte, h]

theorem carryFlag_toNat (a b : Byte) : (carryFlag a b).toNat = if a.toNat + b.toNat > 255 then 1 else 0 :=
  flagByte_decide_toNat _

theorem noBorrowFlag_toNat (a b : Byte) : (noBorrowFlag a b).toNat = if a.toNat ≥ b.toNat then 1 else 0 :=
  flagByte_decide_toNat _

theorem lowBitFlag_toNat (b : Byte) : (lowBitFlag b).toNat = b.toNat % 2 := by
  rw [lowBitFlag, BitVec.toNat_and]
  exact Nat.and_one_is_mod _

/-- Above bit 7 a byte has no bit, so that the mask drops nothing. -/
theorem highBitFlag_toNat (b : Byte) : (highBitFlag b).toNat = b.toNat / 128 := by
  have hbit : (b >>> 7).toNat = b.toNat / 128 := by rw [BitVec.toNat_ushiftRight, Nat.shiftRight_eq_div_pow]
  have hmask : (highBitFlag b).toNat = (b >>> 7).toNat % 2 := lowBitFlag_toNat (b >>> 7)
  have hbyte : b.toNat < 256 := b.isLt
  rw [hmask, hbit]
  omega

/-! ### Results as numbers -/

theorem byte_sub_toNat (a b : Byte) : (a - b).toNat = (a.toNat + 256 - b.toNat) % 256 := by
  have hb : b.toNat < 256 := b.isLt
  rw [BitVec.toNat_sub]
  congr 1
  omega

theorem byte_shiftRight_one_toNat (b : Byte) : (b >>> 1).toNat = b.toNat / 2 := by
  rw [BitVec.toNat_ushiftRight, Nat.shiftRight_eq_div_pow]

theorem byte_shiftLeft_one_toNat (b : Byte) : (b <<< 1).toNat = b.toNat * 2 % 256 := by
  rw [BitVec.toNat_shiftLeft, Nat.shiftLeft_eq]

theorem shiftSource_toNat (s : State) (x y : Reg) :
    (shiftSource s x y).toNat = if s.config.shiftUseVy then (s.getV y).toNat else (s.getV x).toNat :=
  apply_ite BitVec.toNat _ _ _

theorem masked_and_not (b nn : Byte) : b &&& nn &&& ~~~nn = 0 := by
  rw [BitVec.and_assoc, BitVec.and_not_self]
  exact BitVec.and_zero

end Sys2Proof.Machine
end

section
/-! The register and ALU instructions (41_alu.md R140 to R152), each an instance of one of the writes above. -/

namespace Sys2Proof.Machine

/-- Settles O19: each instruction is `writeLogic` of its bitwise result. -/
theorem logicResultsAndVfReset : Obligations.LogicResultsAndVfReset := fun x _ r s =>
  ⟨⟨_, rfl, onlyChanges_writeLogic s x _, writeLogic_getV s x r _⟩,
    ⟨_, rfl, onlyChanges_writeLogic s x _, writeLogic_getV s x r _⟩,
    ⟨_, rfl, onlyChanges_writeLogic s x _, writeLogic_getV s x r _⟩⟩

/-- Settles O20: each instruction is `writeResultThenFlag` of its result and its carry or no-borrow flag, read as numbers. -/
theorem addAndSubtractResultsAndFlags : Obligations.AddAndSubtractResultsAndFlags := by
  intro x y s
  refine ⟨⟨_, rfl, onlyChanges_writeResultThenFlag s x _ _, fun r => ?_⟩,
    ⟨_, rfl, onlyChanges_writeResultThenFlag s x _ _, fun r => ?_⟩,
    ⟨_, rfl, onlyChanges_writeResultThenFlag s x _ _, fun r => ?_⟩⟩
  · rw [writeResultThenFlag_getV_toNat, carryFlag_toNat, BitVec.toNat_add]
  · rw [writeResultThenFlag_getV_toNat, noBorrowFlag_toNat, byte_sub_toNat]
  · rw [writeResultThenFlag_getV_toNat, noBorrowFlag_toNat, byte_sub_toNat]

/-- Settles O21: both instructions are `writeFlagThenResult` of the shifted source and the bit shifted out, read as numbers. -/
theorem shiftResultsAndFlags : Obligations.ShiftResultsAndFlags := by
  intro x y s src hsrc
  rw [← shiftSource_toNat] at hsrc
  refine ⟨⟨_, rfl, onlyChanges_writeFlagThenResult s x _ _, fun r => ?_⟩,
    ⟨_, rfl, onlyChanges_writeFlagThenResult s x _ _, fun r => ?_⟩⟩
  · rw [writeFlagThenResult_getV_toNat, lowBitFlag_toNat, byte_shiftRight_one_toNat, hsrc]
  · rw [writeFlagThenResult_getV_toNat, highBitFlag_toNat, byte_shiftLeft_one_toNat, hsrc]

/-- Settles O18: each instruction is `setV` of its value. -/
theorem loadsAndAddImmediateWriteOneRegister : Obligations.LoadsAndAddImmediateWriteOneRegister := by
  intro x y nn s
  refine ⟨⟨_, rfl, State.getV_setV_self .., sameRegsBut_setV s x _, onlyChanges_setV s x _⟩,
    ⟨_, rfl, ?_, sameRegsBut_setV s x _, onlyChanges_setV s x _⟩,
    ⟨_, rfl, State.getV_setV_self .., sameRegsBut_setV s x _, onlyChanges_setV s x _⟩⟩
  rw [State.getV_setV_self, BitVec.toNat_add]

/-! ### The random byte -/

theorem randomWith_getV_self (b : Byte) (x : Reg) (nn : Byte) (s : State) : (randomWith b x nn s).getV x = b &&& nn :=
  State.getV_setV_self ..

theorem sameRegsBut_randomWith (b : Byte) (x : Reg) (nn : Byte) (s : State) : SameRegsBut x s (randomWith b x nn s) :=
  sameRegsBut_setV s.usedRandom x _

theorem onlyChanges_randomWith (b : Byte) (x : Reg) (nn : Byte) (s : State) :
    OnlyChanges [.regs, .randDraws] s (randomWith b x nn s) :=
  ((onlyChanges_usedRandom s).mono (by simp)).trans ((onlyChanges_setV s.usedRandom x _).mono (by simp))

/-- Settles O22: RND is `randomWith` of the next draw, and two draws differ in the registers alone. -/
theorem randomByteIsMasked : Obligations.RandomByteIsMasked := fun x nn s =>
  ⟨_, rfl, randomWith_getV_self .., by rw [randomWith_getV_self, masked_and_not], sameRegsBut_randomWith _ x nn s, rfl,
    onlyChanges_randomWith _ x nn s, fun b => ⟨randomWith_getV_self .., sameRegsBut_randomWith _ x nn s, rfl⟩⟩

end Sys2Proof.Machine
end

section
/-! Operands and results of the index instructions as numbers (42_index_memory.md R170 to R173). -/

namespace Sys2Proof.Machine

theorem word_add_zextByte (w : Word) (b : Byte) :
    w + zextByte b = BitVec.ofNat 16 ((w.toNat + b.toNat) % 65536) := by
  have hb : (zextByte b).toNat = b.toNat := BitVec.toNat_setWidth_of_le (by decide)
  refine BitVec.eq_of_toNat_eq ?_
  rw [BitVec.toNat_add, hb, BitVec.toNat_ofNat]
  exact (Nat.mod_mod _ _).symm

/-- Before any bound on the parameters: the address modulo 65536. -/
theorem glyphAddr_eq_ofNat (c : Config) (b : Byte) : glyphAddr c b = BitVec.ofNat 16 (c.fontBase + 5 * b.toNat) := by
  rw [BitVec.ofNat_add, BitVec.ofNat_mul, BitVec.ofNat_toNat]
  rfl

/-- On a legal instance the largest glyph address is 432 + 5 · 255, so that nothing is reduced. -/
theorem glyphAddr_toNat {c : Config} (hc : c.wf = true) (b : Byte) :
    (glyphAddr c b).toNat = c.fontBase + 5 * b.toNat := by
  have hbound : c.fontBase + 80 ≤ 512 := of_decide_eq_true hc
  have hb : b.toNat < 256 := b.isLt
  rw [glyphAddr_eq_ofNat, BitVec.toNat_ofNat]
  omega

/-- The glyph rows of the reset image (20_memory.md R65). -/
theorem resetCore_readByte_font (s : State) (hwf : s.config.wf = true) (i : Nat) (h : i < 80) :
    (resetCore s).readByte (BitVec.ofNat 16 (s.config.fontBase + i)) = s.config.fontData[i] := by
  rw [resetCore_readByte, memIndex_font hwf ⟨i, h⟩, resetByte_font s.config i h]

theorem hundredsDigit_toNat (v : Byte) : (hundredsDigit v).toNat = v.toNat / 100 := BitVec.toNat_udiv

theorem tensDigit_toNat (v : Byte) : (tensDigit v).toNat = v.toNat / 10 % 10 := by
  rw [tensDigit, BitVec.toNat_umod, BitVec.toNat_udiv]
  rfl

theorem unitsDigit_toNat (v : Byte) : (unitsDigit v).toNat = v.toNat % 10 := BitVec.toNat_umod

end Sys2Proof.Machine
end

section
/-! What LD_B and the block transfers leave in memory, in the registers and in `I` (42_index_memory.md R173 to R176). -/

namespace Sys2Proof.Machine

theorem dataAddr_zero (base : Word) : dataAddr base 0 = base := BitVec.add_zero base

theorem dataAddr_one (base : Word) : dataAddr base 1 = base + 1 := rfl

theorem dataAddr_two (base : Word) : dataAddr base 2 = base + 2 := rfl

/-! ### Three digits -/

theorem onlyChanges_writeByte (s : State) (a : Word) (v : Byte) : OnlyChanges [.memory] s (s.writeByte a v) :=
  onlyChanges_withMem s _

/-- The three writes of Fx33, in the order of the model. -/
def storeDigits (base : Word) (v : Byte) (s : State) : State :=
  ((s.writeByte (dataAddr base 0) (hundredsDigit v)).writeByte (dataAddr base 1) (tensDigit v)).writeByte
    (dataAddr base 2) (unitsDigit v)

theorem exec_ldB (x : Reg) (s : State) : exec (.ldB x) s = .next (storeDigits s.I (s.getV x) s) := rfl

theorem onlyChanges_storeDigits (base : Word) (v : Byte) (s : State) :
    OnlyChanges [.memory] s (storeDigits base v s) :=
  ((onlyChanges_writeByte s _ _).trans (onlyChanges_writeByte _ _ _)).trans (onlyChanges_writeByte _ _ _)

theorem storeDigits_readByte (base : Word) (v : Byte) (s : State) (hwf : Memory.wf s.config s.mem = true) (a : Word) :
    (storeDigits base v s).readByte a =
      if memIndex a = memIndex (dataAddr base 2) then unitsDigit v
      else if memIndex a = memIndex (dataAddr base 1) then tensDigit v
      else if memIndex a = memIndex (dataAddr base 0) then hundredsDigit v else s.readByte a := by
  have hwf₁ := s.writeByte_wf (dataAddr base 0) (hundredsDigit v) hwf
  have hwf₂ := State.writeByte_wf _ (dataAddr base 1) (tensDigit v) hwf₁
  rw [storeDigits, State.readByte_writeByte _ _ _ _ hwf₂, State.readByte_writeByte _ _ _ _ hwf₁,
    State.readByte_writeByte _ _ _ _ hwf]

/-! ### Blocks of registers -/

theorem storeRegs_readByte_of_ne (base : Word) (s : State) (hwf : Memory.wf s.config s.mem = true) (n : Nat) (a : Word)
    (ha : ∀ i : Nat, i < n → memIndex a ≠ memIndex (dataAddr base i)) :
    (storeRegs base s n).readByte a = s.readByte a := by
  induction n with
  | zero => rfl
  | succ n ih =>
    rw [storeRegs_readByte_succ base s n a hwf, if_neg (ha n n.lt_succ_self)]
    exact ih fun i hi => ha i (Nat.lt_succ_of_lt hi)

theorem onlyChanges_storeRegs (base : Word) (s : State) (n : Nat) : OnlyChanges [.memory] s (storeRegs base s n) := by
  rw [storeRegs_eq]
  exact onlyChanges_withMem s _

theorem onlyChanges_loadRegs (base : Word) (s : State) (n : Nat) : OnlyChanges [.regs] s (loadRegs base s n) := by
  rw [loadRegs_eq]
  exact onlyChanges_withV s _

/-- A transfer that changes one part, and then `I`. -/
theorem OnlyChanges.setI {p : StatePart} {s t : State} (h : OnlyChanges [p] s t) (w : Word) :
    OnlyChanges [p, .index] s (t.setI w) :=
  (h.mono (by simp)).trans ((onlyChanges_setI t w).mono (by simp))

end Sys2Proof.Machine
end

section
/-! The index instructions, the stores and the loads (42_index_memory.md R170 to R177). -/

namespace Sys2Proof.Machine

/-- Settles O23: each instruction is `setI` of its value. -/
theorem indexLoadAndAddWriteI : Obligations.IndexLoadAndAddWriteI := fun nnn x s => by
  rw [← word_add_zextByte, ← zextAddr_eq_ofNat]
  exact ⟨rfl, rfl⟩

/-- Settles O24: LD_F is `setI` of the glyph address; five bytes per digit make row `k` of digit `d` byte `5 * d + k` of the
font. -/
theorem glyphAddressIsFiveBytesPerDigit : Obligations.GlyphAddressIsFiveBytesPerDigit := by
  intro x s hwf
  refine ⟨_, rfl, onlyChanges_setI s _, glyphAddr_toNat hwf _, fun d k h hd _ => ?_⟩
  have hrow : glyphAddr s.config (s.getV x) + BitVec.ofNat 16 k = BitVec.ofNat 16 (s.config.fontBase + (5 * d + k)) := by
    rw [glyphAddr_eq_ofNat, hd, ← BitVec.ofNat_add, Nat.add_assoc]
  rw [State.setI_I, hrow]
  exact resetCore_readByte_font _ hwf _ h

/-- Settles O25: three writes to three different bytes, so that none is overwritten. -/
theorem bcdDigitsAreStored : Obligations.BcdDigitsAreStored := by
  intro x s hwf
  have h01 := memIndex_dataAddr_ne s.I (j := 0) (k := 1) (by decide) (by decide)
  have h02 := memIndex_dataAddr_ne s.I (j := 0) (k := 2) (by decide) (by decide)
  have h12 := memIndex_dataAddr_ne s.I (j := 1) (k := 2) (by decide) (by decide)
  have hread := storeDigits_readByte s.I (s.getV x) s hwf
  simp only [dataAddr_zero, dataAddr_one, dataAddr_two] at h01 h02 h12 hread
  refine ⟨_, exec_ldB x s, ?_, ?_, ?_, fun a h0 h1 h2 => ?_, onlyChanges_storeDigits _ _ s⟩
  · rw [hread, if_neg h02, if_neg h01, if_pos rfl, hundredsDigit_toNat]
  · rw [hread, if_neg h12, if_pos rfl, tensDigit_toNat]
  · rw [hread, if_pos rfl, unitsDigit_toNat]
  · rw [hread, if_neg h2, if_neg h1, if_neg h0]

/-- Settles O26: the store loop over the registers up to `x`, then `setI`. -/
theorem registerBlockIsStored : Obligations.RegisterBlockIsStored := by
  intro x s hwf
  refine ⟨_, rfl, fun i hi => ?_, fun a ha => ?_, rfl, (onlyChanges_storeRegs s.I s _).setI _⟩
  · exact storeRegs_readByte s.I s hwf _ x.isLt i (Nat.lt_succ_of_le hi) _ rfl
  · exact storeRegs_readByte_of_ne s.I s hwf _ a fun i hi => ha ⟨i, by omega⟩ (Nat.le_of_lt_succ hi)

/-- Settles O27: the load loop over the registers up to `x`, then `setI`. -/
theorem registerBlockIsLoaded : Obligations.RegisterBlockIsLoaded := by
  intro x s
  refine ⟨_, rfl, fun r => ?_, rfl, (onlyChanges_loadRegs s.I s _).setI _⟩
  rw [State.getV_setI, loadRegs_getV s.I s _ x.isLt]
  simp only [Nat.lt_succ_iff, Fin.le_def, dataAddr]

/-- Settles O28: the load reads the bytes that the store wrote. -/
theorem storeThenLoadRestoresRegisters : Obligations.StoreThenLoadRestoresRegisters := by
  intro x s t u hwf ht hI hkept
  obtain ⟨t', ht', hstored, -⟩ := registerBlockIsStored x s hwf
  obtain rfl : t' = t := Host.Outcome.next.inj (ht'.symm.trans ht)
  obtain ⟨w, hw, hloaded, -⟩ := registerBlockIsLoaded x u
  refine ⟨w, hw, fun i hi => ?_⟩
  calc w.getV i = u.readByte (s.I + BitVec.ofNat 16 i.val) := by rw [hloaded, if_pos hi, hI]
    _ = t'.readByte (s.I + BitVec.ofNat 16 i.val) := hkept i hi
    _ = s.getV i := hstored i hi

end Sys2Proof.Machine
end

section
/-! The cells and the flag of a draw, and when it is performed (43_display.md R190 to R195). -/

namespace Sys2Proof.Machine

/-! ### Cells -/

theorem framebuffer_ext {f g : Framebuffer} (h : ∀ (r : Fin 32) (c : Fin 64), f[r][c] = g[r][c]) : f = g :=
  Vector.ext fun r hr => Vector.ext fun c hc => h ⟨r, hr⟩ ⟨c, hc⟩

theorem pixel_setFb_clearFb (s : State) (r : Fin 32) (c : Fin 64) : (s.setFb clearFb).pixel r c = false := by
  simp [State.pixel, clearFb]

/-- The origin and the `n` bytes from `I` settle where the sprite has a set pixel. -/
theorem spriteCell_congr {s u : State} {x y x' y' : Reg} {n : Fin 16}
    (hx : (u.getV x').toNat % 64 = (s.getV x).toNat % 64) (hy : (u.getV y').toNat % 32 = (s.getV y).toNat % 32)
    (hbytes : ∀ k : Nat, k < n.val → u.readByte (u.I + BitVec.ofNat 16 k) = s.readByte (s.I + BitVec.ofNat 16 k))
    (r : Fin 32) (c : Fin 64) : spriteCell u x' y' n r c = spriteCell s x y n r c := by
  rw [Bool.eq_iff_iff]
  simp only [spriteCell, hx, hy, Bool.and_eq_true, decide_eq_true_eq]
  exact and_congr_right fun hin => by rw [hbytes _ (by omega)]

/-! ### A draw performed -/

section
variable (x y : Reg) (n : Fin 16) (s : State)

theorem drawSprite_pixel (r : Fin 32) (c : Fin 64) :
    (drawSprite x y n s).pixel r c = (s.pixel r c ^^ spriteCell s x y n r c) := plotSprite_get ..

theorem drawSprite_getV_VF : (drawSprite x y n s).getV VF =
    if ∃ (r : Fin 32) (c : Fin 64), spriteCell s x y n r c = true ∧ s.pixel r c = true then 1 else 0 := by
  rw [drawSprite, State.getV_setV_self, flagByte]
  refine if_congr ((plotSprite_hit ..).trans ?_) rfl rfl
  simp only [spriteCell, Bool.and_eq_true, decide_eq_true_eq, and_assoc]
  rfl

theorem sameRegsBut_drawSprite : SameRegsBut VF s (drawSprite x y n s) := sameRegsBut_setV (s.setFb _) VF _

theorem onlyChanges_drawSprite : OnlyChanges [.regs, .screen] s (drawSprite x y n s) :=
  ((onlyChanges_setFb s _).mono (by simp)).trans ((onlyChanges_setV _ VF _).mono (by simp))

end

/-! ### The gate of DISPLAY_WAIT -/

/-- A state whose count of consumed answers is replaced: what held draws give. -/
def State.withReadyDraws (s : State) (m : Nat) : State := { s with readyDraws := m }

theorem onlyChanges_withReadyDraws (s : State) (m : Nat) : OnlyChanges [.readyDraws] s (s.withReadyDraws m) := by
  intro p hp
  have hsame := Unchanged.refl p s
  cases p with
  | readyDraws => simp at hp
  | _ => exact hsame

/-- How many answers have been consumed after one draw in `s`, performed or held. -/
def readyDrawsAfter (s : State) : Nat := if s.config.displayWait then s.readyDraws + 1 else s.readyDraws

section
variable {ready : Bool} {s : State} (x y : Reg) (n : Fin 16)

theorem drawWith_of_held (hheld : s.config.displayWait = true ∧ ready = false) :
    drawWith ready x y n s = s.usedReady.rewind := by
  rw [drawWith, if_pos hheld.1, hheld.2]
  rfl

variable (hperf : ¬ (s.config.displayWait = true ∧ ready = false))
include hperf

theorem drawWith_of_performed :
    drawWith ready x y n s = drawSprite x y n (s.withReadyDraws (readyDrawsAfter s)) := by
  unfold drawWith readyDrawsAfter
  split
  · next hwait =>
    rw [if_pos (by simpa [hwait] using hperf)]
    rfl
  · rfl

theorem drawWith_pixel (r : Fin 32) (c : Fin 64) :
    (drawWith ready x y n s).pixel r c = (s.pixel r c ^^ spriteCell s x y n r c) := by
  rw [drawWith_of_performed x y n hperf]
  exact drawSprite_pixel ..

theorem drawWith_getV_VF : (drawWith ready x y n s).getV VF =
    if ∃ (r : Fin 32) (c : Fin 64), spriteCell s x y n r c = true ∧ s.pixel r c = true then 1 else 0 := by
  rw [drawWith_of_performed x y n hperf]
  exact drawSprite_getV_VF ..

end

end Sys2Proof.Machine
end

section
/-! CLS and DRW (43_display.md R190 to R197). -/

namespace Sys2Proof.Machine

/-- Settles O31: CLS is `setFb` of the clear screen. -/
theorem clearScreenClearsEveryCell : Obligations.ClearScreenClearsEveryCell := fun s =>
  ⟨_, rfl, pixel_setFb_clearFb s, onlyChanges_setFb s _⟩

/-- Settles O32, by whether the draw is held: a draw performed is `drawSprite` once its answer, if any, is counted. -/
theorem drawIsCellwiseExclusiveOr : Obligations.DrawIsCellwiseExclusiveOr := by
  refine fun x y n s => ⟨rfl, fun ready => ?_⟩
  split
  · next hheld => exact drawWith_of_held x y n hheld
  · next hperf =>
    refine ⟨drawWith_pixel x y n hperf, drawWith_getV_VF x y n hperf, ?_⟩
    rw [drawWith_of_performed x y n hperf]
    exact ⟨sameRegsBut_drawSprite x y n (s.withReadyDraws _), rfl,
      ((onlyChanges_withReadyDraws s _).mono (by simp)).trans ((onlyChanges_drawSprite x y n _).mono (by simp))⟩

/-- Settles O33: on the clear screen the exclusive or is the sprite itself, and no set pixel meets a set cell. -/
theorem clearThenDrawShowsTheSpriteAlone : Obligations.ClearThenDrawShowsTheSpriteAlone := by
  intro x y n ready s t ht hready
  obtain rfl : s.setFb clearFb = t := Host.Outcome.next.inj ht
  have hperf : ¬ ((s.setFb clearFb).config.displayWait = true ∧ ready = false) := fun ⟨hwait, hheld⟩ =>
    Bool.false_ne_true (hheld.symm.trans (hready hwait))
  refine ⟨fun r c => ?_, ?_⟩
  · rw [drawWith_pixel x y n hperf, pixel_setFb_clearFb, Bool.false_xor]
    rfl
  · simp [drawWith_getV_VF x y n hperf, pixel_setFb_clearFb]

/-- Settles O34: both draws exclusive-or the same cells, so the second undoes the first, and a set pixel meets a set cell in the
second exactly if it met a clear one in the first. -/
theorem drawingTwiceRestoresTheScreen : Obligations.DrawingTwiceRestoresTheScreen := by
  intro x y x' y' n s u hfb hx hy hbytes
  have hsprite := spriteCell_congr hx hy hbytes
  have hperf (t : State) : ¬ (t.config.displayWait = true ∧ true = false) := by simp
  have hfirst (r : Fin 32) (c : Fin 64) : u.pixel r c = (s.pixel r c ^^ spriteCell s x y n r c) := by
    rw [← drawWith_pixel x y n (hperf s), State.pixel, hfb, State.pixel]
  have hflag : (drawWith true x' y' n u).getV VF =
      if ∃ (r : Fin 32) (c : Fin 64), spriteCell s x y n r c = true ∧ s.pixel r c = false then 1 else 0 := by
    rw [drawWith_getV_VF x' y' n (hperf u)]
    refine if_congr (exists_congr fun r => exists_congr fun c => ?_) rfl rfl
    rw [hsprite, hfirst]
    exact and_congr_right fun hset => by simp [hset]
  refine ⟨framebuffer_ext fun r c => ?_, hflag, fun hclear => ?_⟩
  · calc (drawWith true x' y' n u).pixel r c
        = (u.pixel r c ^^ spriteCell u x' y' n r c) := drawWith_pixel x' y' n (hperf u) r c
      _ = (s.pixel r c ^^ (spriteCell s x y n r c ^^ spriteCell s x y n r c)) := by
          rw [hsprite, hfirst, Bool.xor_assoc]
      _ = s.pixel r c := by rw [Bool.xor_self, Bool.xor_false]
  · simp only [hflag, hclear, and_true]

end Sys2Proof.Machine
end

section
/-! A draw under DISPLAY_WAIT is retried until the environment answers ready (43_display.md R192, 50_host_interface.md R248 (a)). -/

namespace Sys2Proof.Machine

/-! ### The answers are fair -/

/-- While the hold lasts the answers are false; when it is used up, `d` answers on, the answer is true. -/
theorem answerAt_of_remaining (hold : Nat → Nat) (d : Nat) : ∀ n : Nat,
    (answerPos hold n).2 + d = hold (answerPos hold n).1 → answerAt hold (n + d) = true := by
  induction d with
  | zero => exact fun n h => beq_iff_eq.mpr h
  | succ d ih =>
    intro n h
    have hfalse : answerAt hold n = false := beq_eq_false_iff_ne.mpr (by omega)
    rw [Nat.add_comm d 1, ← Nat.add_assoc]
    refine ih (n + 1) ?_
    rw [answerPos_succ_of_false hold n hfalse, Nat.add_assoc, Nat.add_comm 1 d]
    exact h

theorem fairAnswers_answerAt (hold : Nat → Nat) : FairAnswers (answerAt hold) := fun n =>
  ⟨_, Nat.le_add_right _ _, answerAt_of_remaining hold _ n (Nat.add_sub_cancel' (answerPos_le hold n))⟩

theorem fairAnswers_displayReady : FairAnswers displayReady := fairAnswers_answerAt _

/-! ### Cycles at a gated draw -/

/-- The rewind takes back the advance of the fetch. -/
theorem advance_rewind (s : State) : s.advance.rewind = s := congrArg s.setPc (advance_rewind_pc s)

section
variable {x y : Reg} {n : Fin 16} {s : State} (hrun : s.halted = false) (hwait : s.config.displayWait = true)
  (hdecode : decode (fetchOp s) = some (.drw x y n))
include hrun hdecode

theorem cycle_of_drw : cycle s = drawWith (displayReady s.readyDraws) x y n s.advance := by
  rw [cycle, step_of_decode hrun hdecode]
  rfl

include hwait

theorem cycle_of_held (hheld : displayReady s.readyDraws = false) : cycle s = s.withReadyDraws (s.readyDraws + 1) := by
  rw [cycle_of_drw hrun hdecode, drawWith_of_held (s := s.advance) x y n ⟨hwait, hheld⟩]
  exact advance_rewind s.usedReady

theorem cycle_of_ready (hready : displayReady s.readyDraws = true) :
    cycle s = drawSprite x y n (s.advance.withReadyDraws (s.readyDraws + 1)) := by
  rw [cycle_of_drw hrun hdecode, drawWith_of_performed x y n (by simp [hready]), readyDrawsAfter,
    if_pos (show s.advance.config.displayWait = true from hwait)]
  rfl

/-- Cycles with false answers count them, by induction on their number: each finds the same draw held again. -/
theorem runAgents_held_cycles (k : Nat) (hheld : ∀ j : Nat, j < k → displayReady (s.readyDraws + j) = false) :
    runAgents (List.replicate k .cycle) s = s.withReadyDraws (s.readyDraws + k) := by
  induction k with
  | zero => rfl
  | succ k ih =>
    rw [List.replicate_succ', runAgents_append, ih fun j hj => hheld j (Nat.lt_succ_of_lt hj)]
    exact cycle_of_held (s := s.withReadyDraws _) hrun hwait hdecode (hheld k k.lt_succ_self)

end

/-- Settles O35: the first true answer, which fairness gives, ends the held cycles. -/
theorem heldDrawIsRetriedUntilReady : Obligations.HeldDrawIsRetriedUntilReady := by
  intro x y n s hrun hwait hdecode
  have hheld := runAgents_held_cycles hrun hwait hdecode
  refine ⟨fun k => or_iff_not_imp_left.mpr fun hnone => hheld k fun j hj => ?_, ?_⟩
  · exact Bool.eq_false_iff.mpr fun htrue => hnone ⟨j, hj, htrue⟩
  · have hex : ∃ k : Nat, displayReady (s.readyDraws + k) = true := by
      obtain ⟨m, hle, hm⟩ := fairAnswers_displayReady s.readyDraws
      exact ⟨m - s.readyDraws, by rwa [Nat.add_sub_cancel' hle]⟩
    have hk := hheld (Nat.find hex) fun j hj => Bool.eq_false_iff.mpr (Nat.find_min hex hj)
    refine ⟨Nat.find hex, hk, ?_⟩
    rw [List.replicate_succ', runAgents_append, hk]
    exact cycle_of_ready (s := s.withReadyDraws _) hrun hwait hdecode (Nat.find_spec hex)

end Sys2Proof.Machine
end

section
/-! Keypad and timer instructions (44_keypad_timers.md R210 to R216): the key skips, the wait for a release, and the copies to and
from a timer. -/

namespace Sys2Proof.Machine

/-! ### The key skips -/

theorem encode_skp (x : Reg) : encode (.skp x) = BitVec.ofNat 16 (0xE09E + 256 * x.val) :=
  BitVec.eq_of_toNat_eq (by simp only [encode, packXNN_toNat, BitVec.toNat_ofNat]; omega)

theorem encode_sknp (x : Reg) : encode (.sknp x) = BitVec.ofNat 16 (0xE0A1 + 256 * x.val) :=
  BitVec.eq_of_toNat_eq (by simp only [encode, packXNN_toNat, BitVec.toNat_ofNat]; omega)

/-- A skip moves `pc` and nothing else. -/
theorem skipIf_eq (s : State) (b : Bool) : s.skipIf b = { s with pc := if b = true then s.pc + 2 else s.pc } := by
  cases b <;> rfl

theorem skipIf_not_eq (s : State) (b : Bool) : s.skipIf (!b) = { s with pc := if b = true then s.pc else s.pc + 2 } := by
  cases b <;> rfl

/-- Settles O36, by whether `V[x]` names a key. -/
theorem keySkipsTestTheKeyState : Obligations.KeySkipsTestTheKeyState := by
  intro x s
  split
  · next hlt =>
    have hkey := keyIndex_of_lt s x hlt
    rw [← skipIf_eq, ← skipIf_not_eq]
    exact ⟨execSkp_of_key s x _ hkey, execSknp_of_key s x _ hkey⟩
  · next hge =>
    have hkey := keyIndex_of_ge s x hge
    rw [← encode_skp, ← encode_sknp]
    exact ⟨execSkp_of_none s x hkey, execSknp_of_none s x hkey⟩

/-! ### The wait for a release -/

/-- A byte holds every key number. -/
theorem keyByte_toNat (k : Key) : (keyByte k).toNat = k.val := by
  rw [keyByte, BitVec.toNat_ofNat]
  omega

/-- Where nothing is recorded, clearing the slot with the latch set changes the latch alone. -/
theorem setWait_true_none (s : State) (h : s.rel = none) : s.setWait true none = { s with wait := true } := by
  rw [← h]
  rfl

/-- Settles O37, by whether a release is recorded. -/
theorem keyWaitDeliversOrRetries : Obligations.KeyWaitDeliversOrRetries := by
  intro x s
  split
  · next k hrel =>
    have hval : ((s.setV x (keyByte k)).getV x).toNat = k.val := by rw [State.getV_setV_self, keyByte_toNat]
    have hframe : OnlyChanges [.regs, .waitSlot] s ((s.setV x (keyByte k)).setWait false none) :=
      ((onlyChanges_setV s x _).mono (by simp)).trans ((onlyChanges_setWait _ false none).mono (by simp))
    exact ⟨_, execLdVxK_of_some s x k hrel, hval, sameRegsBut_setV s x _, rfl, rfl, hframe⟩
  · next hrel =>
    have hexec : exec (.ldVxK x) s = .next (s.setWait true none).rewind := execLdVxK_of_none s x hrel
    rw [hexec, setWait_true_none s hrel]
    rfl

/-! ### The timers -/

/-- The tone sounds exactly while the sound timer is not 0 (10_state.md R31, 50_host_interface.md R242). -/
theorem soundOn_eq (s : State) : soundOn s = decide (s.ST ≠ 0) := by
  rw [soundOn, decide_eq_decide, Nat.pos_iff_ne_zero]
  exact not_congr (BitVec.toNat_inj (y := 0))

/-- Settles O38: the copies are `setV`, `setDT` and `setST`. -/
theorem timerInstructionsCopy : Obligations.TimerInstructionsCopy := fun x s =>
  ⟨⟨_, rfl, State.getV_setV_self s x _, sameRegsBut_setV s x _, onlyChanges_setV s x _⟩,
    ⟨_, rfl, rfl, onlyChanges_setDT s _⟩,
    ⟨_, rfl, rfl, onlyChanges_setST s _, soundOn_eq (s.setST (s.getV x))⟩⟩

end Sys2Proof.Machine
end

section
/-! The host's operations between cycles (50_host_interface.md R236 to R240): what a tick, a key event and the loader change, and
what they leave alone. -/

namespace Sys2Proof.Machine

/-! ### Ticks and key events -/

theorem onlyChanges_decreaseTimers (s : State) : OnlyChanges [.delay, .sound] s (decreaseTimers s) :=
  ((onlyChanges_setDT s _).mono (by simp)).trans ((onlyChanges_setST _ _).mono (by simp))

/-- Settles O39: each timer takes one decrement. -/
theorem tickDecrementsBothTimers : Obligations.TickDecrementsBothTimers := fun s =>
  ⟨decay_toNat s.DT, decay_toNat s.ST, onlyChanges_decreaseTimers s⟩

/-- A key read after a key write. -/
theorem key_setKey (s : State) (k j : Key) (b : Bool) : (s.setKey k b).key[j] = if j = k then b else s.key[j] := by
  simp only [State.setKey_key, Fin.getElem_fin, Vector.getElem_set, Fin.ext_iff, eq_comm]

/-- Settles O41: a press is one key write. -/
theorem pressSetsTheKeyBit : Obligations.PressSetsTheKeyBit := fun k s =>
  ⟨fun j => key_setKey s k j true, onlyChanges_setKey s k true⟩

/-- A release while a wait is pending is recorded. -/
theorem releaseKey_of_waiting {s : State} (h : s.wait = true) (k : Key) :
    releaseKey k s = (s.setKey k false).setWait true (some k) := if_pos h

theorem releaseKey_of_not_waiting {s : State} (h : s.wait = false) (k : Key) : releaseKey k s = s.setKey k false :=
  if_neg (by simp [h])

theorem onlyChanges_releaseKey (k : Key) (s : State) : OnlyChanges [.keys, .waitSlot] s (releaseKey k s) := by
  have hkey : OnlyChanges [.keys, .waitSlot] s (s.setKey k false) := (onlyChanges_setKey s k false).mono (by simp)
  cases hwait : s.wait with
  | false => rw [releaseKey_of_not_waiting hwait]; exact hkey
  | true => rw [releaseKey_of_waiting hwait]; exact hkey.trans ((onlyChanges_setWait _ _ _).mono (by simp))

/-- Settles O42, by whether a wait is pending: the write of the slot leaves the keys alone. -/
theorem releaseIsRecordedWhileWaiting : Obligations.ReleaseIsRecordedWhileWaiting := by
  intro k s
  have hframe := onlyChanges_releaseKey k s
  cases hwait : s.wait with
  | false =>
    rw [releaseKey_of_not_waiting hwait] at hframe ⊢
    exact ⟨fun j => key_setKey s k j false, rfl, hwait, hframe⟩
  | true =>
    rw [releaseKey_of_waiting hwait] at hframe ⊢
    exact ⟨fun j => key_setKey s k j false, rfl, rfl, hframe⟩

/-! ### The loader -/

theorem loadProgram_of_fits {bytes : List Byte} (h : bytes.length ≤ 3584) (s : State) :
    loadProgram bytes s = (s.writeBytes 0x200 bytes, .ok) := if_pos (decide_eq_true h)

theorem loadProgram_of_oversized {bytes : List Byte} (h : 3584 < bytes.length) (s : State) :
    loadProgram bytes s = (s, .programTooLarge) :=
  if_neg fun hfits => absurd (of_decide_eq_true hfits) (Nat.not_le_of_lt h)

/-- Settles O44: the program does not fit. -/
theorem oversizedProgramChangesNothing : Obligations.OversizedProgramChangesNothing := fun _ s h =>
  loadProgram_of_oversized h s

theorem onlyChanges_writeBytes (s : State) (a : Word) (bs : List Byte) : OnlyChanges [.memory] s (s.writeBytes a bs) := by
  rw [State.writeBytes_eq]
  exact onlyChanges_withMem s _

/-- The loader changes the memory alone, whether it accepts the program or refuses it. -/
theorem onlyChanges_loadProgram (bytes : List Byte) (s : State) : OnlyChanges [.memory] s (loadProgram bytes s).1 := by
  by_cases h : bytes.length ≤ 3584
  · rw [loadProgram_of_fits h]
    exact onlyChanges_writeBytes s _ bytes
  · rw [loadProgram_of_oversized (by omega)]
    exact .refl _ s

theorem dataAddr_add_one (a : Word) (i : Nat) : dataAddr (a + 1) i = dataAddr a (i + 1) := by
  rw [dataAddr, dataAddr, BitVec.add_assoc, BitVec.add_comm 1, BitVec.ofNat_add]
  rfl

/-- No other byte of less than 4096 from `a` onwards is the byte at `a`. -/
theorem memIndex_dataAddr_ne_base (a : Word) {i : Nat} (h0 : 0 < i) (h : i < memSize) :
    memIndex (dataAddr a i) ≠ memIndex a := by
  rw [memSize] at h
  rw [memIndex_eq_mod, memIndex_eq_mod, dataAddr, BitVec.toNat_add, BitVec.toNat_ofNat]
  omega

/-- Writing bytes leaves alone what none of them is written to. -/
theorem readByte_writeBytes_outside (b : Word) (bs : List Byte) : ∀ (s : State) (a : Word),
    Memory.wf s.config s.mem = true → (∀ i : Nat, i < bs.length → memIndex b ≠ memIndex (dataAddr a i)) →
    (s.writeBytes a bs).readByte b = s.readByte b := by
  induction bs with
  | nil => exact fun _ _ _ _ => rfl
  | cons v bs ih =>
    intro s a hwf hout
    have hhead : memIndex b ≠ memIndex a := by simpa only [dataAddr_zero] using hout 0 (Nat.succ_pos _)
    rw [State.writeBytes, ih _ _ (s.writeByte_wf a v hwf) fun i hi => ?_, State.readByte_writeByte s a b v hwf,
      if_neg hhead]
    rw [dataAddr_add_one]
    exact hout (i + 1) (Nat.succ_lt_succ hi)

/-- Byte `i` of at most 4096 bytes written is read `i` bytes on: no later one is written over it. -/
theorem readByte_writeBytes_inside (bs : List Byte) : ∀ (s : State) (a : Word),
    Memory.wf s.config s.mem = true → bs.length ≤ memSize →
    ∀ (i : Nat) (h : i < bs.length), (s.writeBytes a bs).readByte (dataAddr a i) = bs[i] := by
  induction bs with
  | nil => exact fun _ _ _ _ i h => absurd h i.not_lt_zero
  | cons v bs ih =>
    intro s a hwf hfit i h
    rw [List.length_cons] at hfit h
    have hwf' := s.writeByte_wf a v hwf
    rw [State.writeBytes]
    cases i with
    | zero =>
      rw [dataAddr_zero, readByte_writeBytes_outside a bs _ _ hwf' fun i hi => ?_, State.readByte_writeByte s a a v hwf,
        if_pos rfl, List.getElem_cons_zero]
      rw [dataAddr_add_one]
      exact (memIndex_dataAddr_ne_base a i.succ_pos (by omega)).symm
    | succ i => rw [← dataAddr_add_one, List.getElem_cons_succ, ih _ _ hwf' (by omega)]

/-- Where the loader puts byte `i` of a program that fits: no address is masked. -/
theorem memIndex_dataAddr_progBase {i : Nat} (h : i < 3584) : memIndex (dataAddr 0x200 i) = 0x200 + i := by
  rw [memIndex_eq_mod, dataAddr, BitVec.toNat_add, BitVec.toNat_ofNat]
  show (512 + i % 65536) % 65536 % 4096 = 512 + i
  omega

/-- Settles O43: a program that fits is written byte by byte from 0x200 onwards. -/
theorem loaderCopiesTheProgram : Obligations.LoaderCopiesTheProgram := by
  intro bytes s hwf hfit
  have hframe := onlyChanges_loadProgram bytes s
  rw [loadProgram_of_fits hfit] at hframe ⊢
  refine ⟨rfl, fun i h => ?_, fun a ha => ?_, hframe⟩
  · rw [BitVec.ofNat_add]
    exact readByte_writeBytes_inside bytes s 0x200 hwf (hfit.trans (by decide)) i h
  · refine readByte_writeBytes_outside a bytes s 0x200 hwf fun i hi => ?_
    rw [memIndex_dataAddr_progBase (by omega)]
    omega

end Sys2Proof.Machine
end

section
/-! What a cycle answers the host (50_host_interface.md R232 to R234), and the two states that no cycle leaves: a halt (R233)
and a self-jump (R247). -/

namespace Sys2Proof.Machine

/-! ### The latch after an instruction -/

section
variable (s : State)

theorem unchanged_latch_skipIf (b : Bool) : Unchanged .latch s (s.skipIf b) :=
  ⟨s.skipIf_halted b, s.skipIf_faultCode b, s.skipIf_faultOp b⟩

theorem unchanged_latch_writeLogic (x : Reg) (b : Byte) : Unchanged .latch s (writeLogic s x b) := by
  rw [writeLogic_eq]
  exact onlyChanges_withV s _ .latch (by simp)

theorem unchanged_latch_storeRegs (base : Word) (n : Nat) : Unchanged .latch s (storeRegs base s n) := by
  rw [storeRegs_eq]
  exact onlyChanges_withMem s _ .latch (by simp)

theorem unchanged_latch_loadRegs (base : Word) (n : Nat) : Unchanged .latch s (loadRegs base s n) := by
  rw [loadRegs_eq]
  exact onlyChanges_withV s _ .latch (by simp)

/-- A draw leaves the latch alone, performed or held. -/
theorem unchanged_latch_drawWith (ready : Bool) (x y : Reg) (n : Fin 16) : Unchanged .latch s (drawWith ready x y n s) := by
  unfold drawWith
  cases s.config.displayWait <;> cases ready <;> exact ⟨rfl, rfl, rfl⟩

end

/-- `t` is `s` after an instruction, as far as the fault latch tells: the latch is as it was, or a named condition was raised and
nothing else happened (60_exceptions.md R263). -/
def LatchKeptOrRaised (s t : State) : Prop :=
  Unchanged .latch s t ∨ ∃ (c : FaultCode) (op : Word), c ≠ .noFault ∧ t = s.raiseFatal c op

theorem LatchKeptOrRaised.raised (s : State) {c : FaultCode} (hc : c ≠ .noFault) (op : Word) :
    LatchKeptOrRaised s (s.raiseFatal c op) := .inr ⟨c, op, hc, rfl⟩

/-- Every instruction completes, and only the four with a fatal condition can touch the latch. -/
theorem exec_latch (i : Instr) (s : State) : ∃ t : State, exec i s = .next t ∧ LatchKeptOrRaised s t := by
  cases i with
  | ret =>
    by_cases hsp : s.sp.val = 0
    · exact ⟨_, execRet_of_empty s hsp, .raised s (by simp) _⟩
    · exact ⟨_, execRet_of_nonempty s (by omega), .inl ⟨rfl, rfl, rfl⟩⟩
  | call nnn =>
    by_cases hsp : s.sp.val = 16
    · exact ⟨_, execCall_of_full nnn s hsp, .raised s (by simp) _⟩
    · exact ⟨_, execCall_of_room nnn s (by omega), .inl ⟨rfl, rfl, rfl⟩⟩
  | skp x =>
    cases hkey : keyIndex s x with
    | some k => exact ⟨_, execSkp_of_key s x k hkey, .inl (unchanged_latch_skipIf s _)⟩
    | none => exact ⟨_, execSkp_of_none s x hkey, .raised s (by simp) _⟩
  | sknp x =>
    cases hkey : keyIndex s x with
    | some k => exact ⟨_, execSknp_of_key s x k hkey, .inl (unchanged_latch_skipIf s _)⟩
    | none => exact ⟨_, execSknp_of_none s x hkey, .raised s (by simp) _⟩
  | ldVxK x =>
    cases hrel : s.rel with
    | some k => exact ⟨_, execLdVxK_of_some s x k hrel, .inl ⟨rfl, rfl, rfl⟩⟩
    | none => exact ⟨_, execLdVxK_of_none s x hrel, .inl ⟨rfl, rfl, rfl⟩⟩
  | seImm x nn => exact ⟨_, rfl, .inl (unchanged_latch_skipIf s _)⟩
  | sneImm x nn => exact ⟨_, rfl, .inl (unchanged_latch_skipIf s _)⟩
  | seReg x y => exact ⟨_, rfl, .inl (unchanged_latch_skipIf s _)⟩
  | sneReg x y => exact ⟨_, rfl, .inl (unchanged_latch_skipIf s _)⟩
  | orReg x y => exact ⟨_, rfl, .inl (unchanged_latch_writeLogic s x _)⟩
  | andReg x y => exact ⟨_, rfl, .inl (unchanged_latch_writeLogic s x _)⟩
  | xorReg x y => exact ⟨_, rfl, .inl (unchanged_latch_writeLogic s x _)⟩
  | drw x y n => exact ⟨_, rfl, .inl (unchanged_latch_drawWith s _ x y n)⟩
  | stRegs x => exact ⟨_, rfl, .inl (unchanged_latch_storeRegs s s.I _)⟩
  | ldRegs x => exact ⟨_, rfl, .inl (unchanged_latch_loadRegs s s.I _)⟩
  | _ => exact ⟨_, rfl, .inl ⟨rfl, rfl, rfl⟩⟩

/-! ### The outcome of a cycle -/

/-- A halted state that names a condition, or a running one: the first half of 10_state.md R44. -/
def HaltNamesACondition (s : State) : Prop := s.halted = true → s.faultCode ≠ .noFault

/-- What an instruction of a running core leaves names a condition if it is halted. -/
theorem LatchKeptOrRaised.haltNamesACondition {s t : State} (h : LatchKeptOrRaised s t) (hrun : s.halted = false) :
    HaltNamesACondition t := by
  obtain ⟨hhalted, -, -⟩ | ⟨c, op, hc, rfl⟩ := h
  · intro ht
    rw [hhalted, hrun] at ht
    exact absurd ht Bool.false_ne_true
  · exact fun _ => hc

/-- A cycle completes: halted, with a decoded instruction, and with an illegal opcode. -/
theorem step_haltNamesACondition {s : State} (h : HaltNamesACondition s) :
    ∃ t : State, step s = .next t ∧ HaltNamesACondition t := by
  cases hrun : s.halted with
  | true => exact ⟨s, step_of_halted hrun, h⟩
  | false =>
    cases hdecode : decode (fetchOp s) with
    | none => exact ⟨_, step_of_illegal hrun hdecode, fun _ => by simp⟩
    | some i =>
      obtain ⟨t, ht, hlatch⟩ := exec_latch i s.advance
      exact ⟨t, (step_of_decode hrun hdecode).trans ht, hlatch.haltNamesACondition hrun⟩

theorem cycleOutcome_of_running {t : State} (h : t.halted = false) : cycleOutcome t = .ok := if_neg (by simp [h])

theorem cycleOutcome_of_halted {t : State} (h : t.halted = true) : cycleOutcome t = .failed t.faultCode := if_pos h

/-- Settles O8: a halted core names a condition before and after the cycle, and there are four of them. -/
theorem everyCycleEndsOkOrWithAFatalCondition : Obligations.EveryCycleEndsOkOrWithAFatalCondition := by
  intro s hlatch
  obtain ⟨t, hstep, hnamed⟩ := step_haltNamesACondition hlatch.1
  refine ⟨t, hstep, ?_⟩
  cases hhalted : t.halted with
  | false => exact .inl (cycleOutcome_of_running hhalted)
  | true =>
    have hcode := hnamed hhalted
    rw [cycleOutcome_of_halted hhalted]
    cases hc : t.faultCode with
    | noFault => exact absurd hc hcode
    | unknownInstruction | stackUnderflow | stackOverflow | badKeyIndex => simp

/-! ### States that no cycle leaves -/

theorem cycle_of_step {s t : State} (h : step s = .next t) : cycle s = t := by
  rw [cycle, h]

/-- Where one cycle changes nothing, any number of cycles changes nothing. -/
theorem runAgents_cycles_of_step_self {s : State} (h : step s = .next s) (k : Nat) :
    runAgents (List.replicate k .cycle) s = s := by
  induction k with
  | zero => rfl
  | succ k ih =>
    rw [List.replicate_succ, runAgents_cons, show agentStep .cycle s = s from cycle_of_step h, ih]

/-- The jump takes `pc` back to where the fetch found it. -/
theorem step_of_atSelfJump {s : State} (h : AtSelfJump s) : step s = .next s := by
  obtain ⟨hrun, nnn, hdecode, hpc⟩ := h
  calc step s = .next (s.setPc (zextAddr nnn)) := step_of_decode hrun hdecode
    _ = .next s := by rw [← hpc]; rfl

/-- Settles O17: the one cycle is the identity, so every number of them is. -/
theorem selfJumpIsTheEndState : Obligations.SelfJumpIsTheEndState := fun k _ h =>
  ⟨step_of_atSelfJump h, runAgents_cycles_of_step_self (step_of_atSelfJump h) k⟩

/-- Ticks and key events touch the timers, the keys and the wait slot alone. -/
theorem onlyChanges_agentStep_of_hostEvent {a : AgentStep} (hcycle : a ≠ .cycle) (hreset : a ≠ .reset)
    (hload : ∀ bytes : List Byte, a ≠ .load bytes) (s : State) :
    OnlyChanges [.delay, .sound, .keys, .waitSlot] s (agentStep a s) := by
  cases a with
  | cycle => exact absurd rfl hcycle
  | tick => exact (onlyChanges_decreaseTimers s).mono (by simp)
  | press k => exact (onlyChanges_setKey s k true).mono (by simp)
  | release k => exact (onlyChanges_releaseKey k s).mono (by simp)
  | load bytes => exact absurd rfl (hload bytes)
  | reset => exact absurd rfl hreset

/-- No step of an agent but a reset moves a halted core. -/
theorem onlyChanges_agentStep_of_halted {a : AgentStep} {s : State} (hhalted : s.halted = true) (hreset : a ≠ .reset) :
    OnlyChanges [.memory, .delay, .sound, .keys, .waitSlot] s (agentStep a s) := by
  cases a with
  | cycle =>
    rw [show agentStep .cycle s = s from cycle_of_step (step_of_halted hhalted)]
    exact .refl _ s
  | load bytes => exact (onlyChanges_loadProgram bytes s).mono (by simp)
  | reset => exact absurd rfl hreset
  | tick | press | release =>
    exact (onlyChanges_agentStep_of_hostEvent (by simp) (by simp) (by simp) s).mono (by simp)

/-- No run without a reset moves a halted core, by induction on the run: the latch is in the frame, so the core stays halted. -/
theorem onlyChanges_runAgents_of_halted (l : List AgentStep) : ∀ s : State, s.halted = true → .reset ∉ l →
    OnlyChanges [.memory, .delay, .sound, .keys, .waitSlot] s (runAgents l s) := by
  induction l with
  | nil => exact fun s _ _ => .refl _ s
  | cons a l ih =>
    intro s hhalted hreset
    have hframe := onlyChanges_agentStep_of_halted hhalted (List.ne_of_not_mem_cons hreset).symm
    obtain ⟨hsame, -, -⟩ := hframe .latch (by simp)
    exact hframe.trans (ih _ (hsame.trans hhalted) (List.not_mem_of_not_mem_cons hreset))

/-- Settles O10: the run ends halted, where a cycle changes nothing. -/
theorem haltedCoreStaysHaltedUntilReset : Obligations.HaltedCoreStaysHaltedUntilReset := by
  intro l s hhalted hreset
  have hframe := onlyChanges_runAgents_of_halted l s hhalted hreset
  obtain ⟨hsame, -, -⟩ := hframe .latch (by simp)
  exact ⟨step_of_halted (hsame.trans hhalted), hframe⟩

end Sys2Proof.Machine
end

section
/-! Infinite runs and their finite beginnings (50_host_interface.md R230, R245). -/

namespace Sys2Proof.Machine

/-- By induction on the number of steps: the last one is taken where the others lead. -/
theorem runAt_eq_runAgents (f : Nat → AgentStep) (s : State) (n : Nat) :
    runAt f s n = runAgents ((List.range n).map f) s := by
  induction n with
  | zero => rfl
  | succ n ih =>
    rw [runAt_succ, ih, List.range_succ, List.map_append, runAgents_append]
    rfl

/-- The sequence that begins with the steps of `l` and ticks from then on. -/
def thenTicks (l : List AgentStep) (n : Nat) : AgentStep := l.getD n .tick

theorem map_thenTicks (l : List AgentStep) : (List.range l.length).map (thenTicks l) = l :=
  List.ext_getElem (by simp) fun n _ h => by simp [thenTicks, h]

theorem runAt_thenTicks (l : List AgentStep) (s : State) : runAt (thenTicks l) s l.length = runAgents l s := by
  rw [runAt_eq_runAgents, map_thenTicks]

/-- Settles O57: a finite beginning is a list of agent steps, which keeps the invariant of the reset state. -/
theorem infiniteRunsAreTheirFiniteBeginnings : Obligations.InfiniteRunsAreTheirFiniteBeginnings := by
  refine ⟨runAt_eq_runAgents, fun l s => ⟨thenTicks l, runAt_thenTicks l s⟩, fun c f n hc => ?_⟩
  rw [runAt_eq_runAgents]
  exact ⟨⟨c, _, hc, rfl⟩, (inv_resetWith hc).runAgents _⟩

end Sys2Proof.Machine
end

section
/-! Every fair sequence of answers is read off some choice of the holds (50_host_interface.md R248 (a), log 5): hold `j` is the
distance from the end of the `j`-th true answer to the next one. -/

namespace Sys2Proof.Machine

section
variable {f : Nat → Bool} (h : FairAnswers f)
include h

theorem FairAnswers.exists_gap (n : Nat) : ∃ d : Nat, f (n + d) = true := by
  obtain ⟨m, hle, hm⟩ := h n
  exact ⟨m - n, by rwa [Nat.add_sub_cancel' hle]⟩

/-- How many answers from the `n`-th on are false before the next true one. -/
def FairAnswers.gap (n : Nat) : Nat := Nat.find (h.exists_gap n)

/-- Up to the next true answer, being true is being at the distance `gap`. -/
theorem FairAnswers.eq_true_iff_of_le_gap {n d : Nat} (hd : d ≤ h.gap n) : f (n + d) = true ↔ d = h.gap n := by
  refine ⟨fun htrue => Nat.le_antisymm hd (Nat.find_min' _ htrue), ?_⟩
  rintro rfl
  exact Nat.find_spec (h.exists_gap n)

/-- The first answer after `j` true ones. -/
def FairAnswers.start : Nat → Nat
  | 0 => 0
  | j + 1 => FairAnswers.start j + h.gap (FairAnswers.start j) + 1

/-- The holds of `f`. -/
def FairAnswers.hold (j : Nat) : Nat := h.gap (h.start j)

/-- The place that `answerPos` counts is the place in `f`: after `n` answers, `n` is that far past the last true one. -/
theorem FairAnswers.start_add_answerPos (n : Nat) :
    h.start (answerPos h.hold n).1 + (answerPos h.hold n).2 = n := by
  induction n with
  | zero => rfl
  | succ n ih =>
    cases hanswer : answerAt h.hold n with
    | false => rw [answerPos_succ_of_false _ n hanswer, ← Nat.add_assoc, ih]
    | true =>
      have hend : (answerPos h.hold n).2 = h.gap (h.start (answerPos h.hold n).1) := beq_iff_eq.mp hanswer
      rw [answerPos_succ_of_true _ n hanswer, FairAnswers.start, ← hend, ih]
      rfl

theorem FairAnswers.answerAt_hold (n : Nat) : answerAt h.hold n = f n := by
  have hiff := h.eq_true_iff_of_le_gap (answerPos_le h.hold n)
  rw [h.start_add_answerPos] at hiff
  rw [Bool.eq_iff_iff, hiff]
  exact beq_iff_eq

end

/-- Settles O56: any holds are used up, and the holds of a fair sequence give it back. -/
theorem displayAnswersAreExactlyTheFairOnes : Obligations.DisplayAnswersAreExactlyTheFairOnes :=
  ⟨fairAnswers_displayReady, fairAnswers_answerAt, fun _ h => ⟨h.hold, h.answerAt_hold⟩⟩

end Sys2Proof.Machine
end

section
/-! A draw under DISPLAY_WAIT in an infinite run (43_display.md R192, 50_host_interface.md R245, R248 (a)): ticks and key events
leave the draw where it is, and each cycle consumes one answer, until an answer is true. -/

namespace Sys2Proof.Machine

/-! ### While the draw is held -/

/-- The opcode fetched depends on `pc` and the memory alone. -/
theorem fetchOp_congr {s t : State} (hpc : t.pc = s.pc) (hmem : ∀ a : Word, t.readByte a = s.readByte a) :
    fetchOp t = fetchOp s := by
  simp only [fetchOp, State.readWord, hpc, hmem]

/-- `t` is `s` after ticks, key events and held draws. -/
def HeldSince (s t : State) : Prop := OnlyChanges [.delay, .sound, .keys, .waitSlot, .readyDraws] s t

section
variable {s t : State} (h : HeldSince s t)
include h

theorem HeldSince.pc_eq : t.pc = s.pc := h .pc (by simp)

theorem HeldSince.config_eq : t.config = s.config := h .config (by simp)

theorem HeldSince.fetchOp_eq : fetchOp t = fetchOp s := fetchOp_congr h.pc_eq (h .memory (by simp))

theorem HeldSince.halted_eq : t.halted = s.halted := by
  obtain ⟨hhalted, -, -⟩ := h .latch (by simp)
  exact hhalted

theorem HeldSince.withReadyDraws (m : Nat) : HeldSince s (t.withReadyDraws m) :=
  h.trans ((onlyChanges_withReadyDraws t m).mono (by simp))

/-- A tick or a key event consumes no answer. -/
theorem HeldSince.hostEvent {a : AgentStep} (hcycle : a ≠ .cycle)
    (hother : a ≠ .reset ∧ ∀ bytes : List Byte, a ≠ .load bytes) :
    HeldSince s (agentStep a t) ∧ (agentStep a t).readyDraws = t.readyDraws := by
  obtain ⟨hreset, hload⟩ := hother
  have hframe := onlyChanges_agentStep_of_hostEvent hcycle hreset hload t
  exact ⟨h.trans (hframe.mono (by simp)), hframe .readyDraws (by simp)⟩

end

/-! ### Infinite runs -/

section
variable {f : Nat → AgentStep} {s : State} (hother : NoResetNoLoad f)
include hother

/-- The next cycle of a held draw, at most `e` steps on, finds it with no more answers consumed. -/
theorem HeldSince.next_cycle_within (e : Nat) : ∀ k : Nat, f (k + e) = .cycle → HeldSince s (runAt f s k) →
    ∃ m : Nat, f m = .cycle ∧ HeldSince s (runAt f s m) ∧ (runAt f s m).readyDraws = (runAt f s k).readyDraws := by
  induction e with
  | zero => exact fun k hcycle h => ⟨k, hcycle, h, rfl⟩
  | succ e ih =>
    intro k hcycle h
    by_cases hk : f k = .cycle
    · exact ⟨k, hk, h, rfl⟩
    · obtain ⟨h', hdraws⟩ := h.hostEvent hk (hother k)
      obtain ⟨m, hm, hheld, hm'⟩ := ih (k + 1) (by rwa [Nat.add_assoc, Nat.add_comm 1]) h'
      exact ⟨m, hm, hheld, hm'.trans hdraws⟩

variable (hforever : CyclesForever f)
include hforever

/-- The schedule gives a next cycle. -/
theorem HeldSince.exists_next_cycle {k : Nat} (h : HeldSince s (runAt f s k)) :
    ∃ m : Nat, f m = .cycle ∧ HeldSince s (runAt f s m) ∧ (runAt f s m).readyDraws = (runAt f s k).readyDraws := by
  obtain ⟨c, hle, hc⟩ := hforever k
  exact h.next_cycle_within hother (c - k) k (by rwa [Nat.add_sub_cancel' hle])

variable {x y : Reg} {n : Fin 16} (hrun : s.halted = false) (hwait : s.config.displayWait = true)
  (hdecode : decode (fetchOp s) = some (.drw x y n))
include hrun hwait hdecode

/-- If the answer `d` evaluations on is true, some cycle finds the draw still held and gets a true answer: by induction on `d`,
since a cycle with a false answer consumes one and holds the draw on. -/
theorem HeldSince.ready_cycle (d : Nat) : ∀ k : Nat, HeldSince s (runAt f s k) →
    displayReady ((runAt f s k).readyDraws + d) = true →
    ∃ m : Nat, f m = .cycle ∧ HeldSince s (runAt f s m) ∧ displayReady (runAt f s m).readyDraws = true := by
  induction d with
  | zero =>
    intro k h hready
    obtain ⟨m, hm, hheld, hdraws⟩ := h.exists_next_cycle hother hforever
    exact ⟨m, hm, hheld, by rwa [hdraws]⟩
  | succ d ih =>
    intro k h hready
    obtain ⟨m, hm, hheld, hdraws⟩ := h.exists_next_cycle hother hforever
    cases hanswer : displayReady (runAt f s m).readyDraws with
    | true => exact ⟨m, hm, hheld, hanswer⟩
    | false =>
      have hnext : runAt f s (m + 1) = (runAt f s m).withReadyDraws ((runAt f s m).readyDraws + 1) := by
        rw [runAt_succ, hm]
        exact cycle_of_held (hheld.halted_eq.trans hrun) (by rw [hheld.config_eq, hwait])
          (by rw [hheld.fetchOp_eq, hdecode]) hanswer
      refine ih (m + 1) (by rw [hnext]; exact hheld.withReadyDraws _) ?_
      rw [hnext]
      show displayReady ((runAt f s m).readyDraws + 1 + d) = true
      rwa [hdraws, Nat.add_assoc, Nat.add_comm 1]

end

/-- Settles O58: fairness gives a true answer ahead, and the cycle that consumes it draws. -/
theorem heldDrawIsPerformedInEveryFairRun : Obligations.HeldDrawIsPerformedInEveryFairRun := by
  intro x y n s f hrun hwait hdecode hother hforever
  obtain ⟨d, hd⟩ := fairAnswers_displayReady.exists_gap s.readyDraws
  obtain ⟨k, hk, hheld, hready⟩ := HeldSince.ready_cycle hother hforever hrun hwait hdecode d 0 (.refl _ s) hd
  have hdraw := cycle_of_ready (hheld.halted_eq.trans hrun) (by rw [hheld.config_eq, hwait])
    (by rw [hheld.fetchOp_eq, hdecode]) hready
  refine ⟨k, hk, hheld, ?_⟩
  rw [runAt_succ, hk, ← hheld.pc_eq]
  exact hdraw

end Sys2Proof.Machine
end

section
/-! The table of causes against the instructions (60_exceptions.md R260 to R265): what the table says of the instruction that is
fetched, and what the instruction then does. -/

namespace Sys2Proof

/-- The row of the table that covers an instruction's encoding is the row of the instruction. -/
theorem and_encode_eq_iff {r : OpcodeRow} (hr : r ∈ opcodeTable) (i : Instr) :
    encode i &&& r.1 = r.2 ↔ opcodeRow i = r := by
  obtain ⟨hmem, hcov⟩ := Laws.EncodingRow.mem_and_rowCovers i
  rw [← rowCovers_iff]
  exact ⟨row_eq_of_rowCovers hmem hr hcov, fun h => h ▸ hcov⟩

theorem encode_eq_ret_iff (i : Instr) : encode i = 0x00EE ↔ opcodeRow i = (0xFFFF, 0x00EE) := by
  have hall : encode i &&& 0xFFFF = encode i := BitVec.and_allOnes
  have h := and_encode_eq_iff (r := (0xFFFF, 0x00EE)) (by decide) i
  rwa [hall] at h

theorem ofNat_div_eq_opX (op : Word) : Fin.ofNat 16 (op.toNat / 256) = opX op :=
  Fin.ext (opX_val op).symm

end Sys2Proof

namespace Sys2Proof.Machine

/-- The table of causes, by the instruction in place of the opcode. -/
def fatalCauseOf (s : State) : Instr → Option FaultCode
  | .ret => if s.sp.val = 0 then some .stackUnderflow else none
  | .call _ => if s.sp.val = 16 then some .stackOverflow else none
  | .skp x | .sknp x => if 15 < (s.getV x).toNat then some .badKeyIndex else none
  | _ => none

/-! ### The cause that the table names -/

/-- No row of the opcode table covers exactly the words that decode to nothing (30_encoding.md R100). -/
theorem opcodeTable_all_not_rowCovers_iff (op : Word) :
    opcodeTable.all (fun r => !rowCovers r op) = true ↔ decode op = none := by
  obtain ⟨-, -, hnone, -⟩ := decoderFollowsTheOpcodeTable
  simp only [← hnone op, List.all_eq_true, Bool.not_eq_true']

theorem fatalCause_of_illegal {s : State} (h : decode (fetchOp s) = none) : fatalCause s = some .unknownInstruction :=
  if_pos ((opcodeTable_all_not_rowCovers_iff _).mpr h)

/-- The masks and matches that the table names are the rows of the four instructions with a fatal condition. -/
theorem fatalCause_of_decode {s : State} {i : Instr} (h : decode (fetchOp s) = some i) :
    fatalCause s = fatalCauseOf s i := by
  have hlegal : ¬ opcodeTable.all (fun r => !rowCovers r (fetchOp s)) = true :=
    mt (opcodeTable_all_not_rowCovers_iff _).mp (by simp [h])
  have hcall := and_encode_eq_iff (r := (0xF000, 0x2000)) (by decide) i
  have hskp := and_encode_eq_iff (r := (0xF0FF, 0xE09E)) (by decide) i
  have hsknp := and_encode_eq_iff (r := (0xF0FF, 0xE0A1)) (by decide) i
  rw [fatalCause, if_neg hlegal, ← encodeOfDecodeIsTheWord _ i h, ofNat_div_eq_opX]
  simp only [encode_eq_ret_iff, hcall, hskp, hsknp]
  cases i with
  | ret | call nnn => simp [opcodeRow, fatalCauseOf]
  | skp x | sknp x => simp [opcodeRow, fatalCauseOf, encode, opX_packXNN]
  | _ => simp [opcodeRow, fatalCauseOf]

/-! ### What the instruction does -/

/-- A named cause is raised, with the instruction's opcode, and nothing else happens. -/
theorem exec_of_fatalCauseOf_some {s : State} {i : Instr} {c : FaultCode} (h : fatalCauseOf s i = some c) :
    exec i s = .next (s.raiseFatal c (encode i)) := by
  cases i with
  | ret =>
    obtain ⟨hsp, rfl⟩ : s.sp.val = 0 ∧ .stackUnderflow = c := by simpa [fatalCauseOf] using h
    exact execRet_of_empty s hsp
  | call nnn =>
    obtain ⟨hsp, rfl⟩ : s.sp.val = 16 ∧ .stackOverflow = c := by simpa [fatalCauseOf] using h
    exact execCall_of_full nnn s hsp
  | skp x =>
    obtain ⟨hx, rfl⟩ : 15 < (s.getV x).toNat ∧ .badKeyIndex = c := by simpa [fatalCauseOf] using h
    exact execSkp_of_none s x (keyIndex_of_ge s x (by omega))
  | sknp x =>
    obtain ⟨hx, rfl⟩ : 15 < (s.getV x).toNat ∧ .badKeyIndex = c := by simpa [fatalCauseOf] using h
    exact execSknp_of_none s x (keyIndex_of_ge s x (by omega))
  | _ => cases h

/-- Where no cause is named, the instruction completes and leaves the latch alone. -/
theorem exec_of_fatalCauseOf_none {s : State} {i : Instr} (h : fatalCauseOf s i = none) :
    ∃ t : State, exec i s = .next t ∧ Unchanged .latch s t := by
  cases i with
  | ret =>
    have hsp : s.sp.val ≠ 0 := by simpa [fatalCauseOf] using h
    exact ⟨_, execRet_of_nonempty s (by omega), rfl, rfl, rfl⟩
  | call nnn =>
    have hsp : s.sp.val ≠ 16 := by simpa [fatalCauseOf] using h
    exact ⟨_, execCall_of_room nnn s (by omega), rfl, rfl, rfl⟩
  | skp x =>
    have hx : (s.getV x).toNat ≤ 15 := by simpa [fatalCauseOf] using h
    exact ⟨_, execSkp_of_key s x _ (keyIndex_of_lt s x (by omega)), unchanged_latch_skipIf s _⟩
  | sknp x =>
    have hx : (s.getV x).toNat ≤ 15 := by simpa [fatalCauseOf] using h
    exact ⟨_, execSknp_of_key s x _ (keyIndex_of_lt s x (by omega)), unchanged_latch_skipIf s _⟩
  | ldVxK x =>
    cases hrel : s.rel with
    | some k => exact ⟨_, execLdVxK_of_some s x k hrel, rfl, rfl, rfl⟩
    | none => exact ⟨_, execLdVxK_of_none s x hrel, rfl, rfl, rfl⟩
  | seImm | sneImm | seReg | sneReg => exact ⟨_, rfl, unchanged_latch_skipIf s _⟩
  | orReg | andReg | xorReg => exact ⟨_, rfl, unchanged_latch_writeLogic s _ _⟩
  | drw x y n => exact ⟨_, rfl, unchanged_latch_drawWith s _ x y n⟩
  | stRegs x => exact ⟨_, rfl, unchanged_latch_storeRegs s s.I _⟩
  | ldRegs x => exact ⟨_, rfl, unchanged_latch_loadRegs s s.I _⟩
  | _ => exact ⟨_, rfl, rfl, rfl, rfl⟩

/-! ### What the cycle does -/

/-- The fetch moves nothing that the table of causes reads. -/
theorem fatalCauseOf_advance (s : State) (i : Instr) : fatalCauseOf s.advance i = fatalCauseOf s i := rfl

/-- Settles O9: an illegal opcode is a cause by itself; a legal one is the encoding of its instruction, for which the table and
the execute phase name the same cause. -/
theorem fatalConditionsArePreciseAndComplete : Obligations.FatalConditionsArePreciseAndComplete := by
  intro s hrun
  cases hdecode : decode (fetchOp s) with
  | none =>
    rw [fatalCause_of_illegal hdecode]
    exact ⟨_, step_of_illegal hrun hdecode, rfl⟩
  | some i =>
    rw [fatalCause_of_decode hdecode, step_of_decode hrun hdecode, ← fatalCauseOf_advance]
    cases hcause : fatalCauseOf s.advance i with
    | some c =>
      refine ⟨_, exec_of_fatalCauseOf_some hcause, ?_⟩
      rw [encodeOfDecodeIsTheWord _ i hdecode]
      rfl
    | none =>
      obtain ⟨t, ht, hhalted, hcode, hop⟩ := exec_of_fatalCauseOf_none hcause
      exact ⟨t, ht, hhalted.trans hrun, hcode, hop⟩

end Sys2Proof.Machine
end

section
/-! The first fetch after a reset (70_reset_and_hazards.md R292, R293): of a program, where one is loaded, and of the reset image
where none is. -/

namespace Sys2Proof.Machine

/-- Settles O47: the loader puts the first two bytes at 0x200 and 0x201, and leaves `pc` at 0x200. -/
theorem bootFetchesTheFirstOpcode : Obligations.BootFetchesTheFirstOpcode := by
  intro c hi lo rest _ hfit
  obtain ⟨-, hread, -, hframe⟩ := loaderCopiesTheProgram (hi :: lo :: rest) (State.resetWith c) (Memory.wf_nil c) hfit
  have hpc : (loadProgram (hi :: lo :: rest) (State.resetWith c)).1.pc = 0x200 := hframe .pc (by simp)
  have hhi := hread 0 (by simp)
  have hlo := hread 1 (by simp)
  rw [agentStep, fetchOp, State.readWord, hpc]
  exact congrArg₂ joinBytes hhi hlo

/-- No byte from 0x200 onwards is a font byte (00_scope.md R7). -/
theorem resetWith_readByte_above_font {c : Config} (hc : c.wf = true) {a : Word} (ha : 0x200 ≤ memIndex a) :
    (State.resetWith c).readByte a = 0 := by
  have hbound : c.fontBase + 80 ≤ 512 := of_decide_eq_true hc
  exact resetByte_outside c (memIndex a) (.inr (hbound.trans ha))

theorem fetchOp_resetWith {c : Config} (hc : c.wf = true) : fetchOp (State.resetWith c) = 0x0000 := by
  rw [fetchOp, State.readWord, State.resetWith_pc, resetWith_readByte_above_font hc (by decide),
    resetWith_readByte_above_font hc (by decide)]
  rfl

/-- Settles O46: the word fetched is 0x0000, which is no instruction. -/
theorem bootWithoutProgramHalts : Obligations.BootWithoutProgramHalts := by
  intro c hc
  have hfetch := fetchOp_resetWith hc
  have hillegal : decode (fetchOp (State.resetWith c)) = none := by
    rw [hfetch]
    decide
  rw [step_of_illegal rfl hillegal, hfetch]
  rfl

end Sys2Proof.Machine
end

section
/-! The delay timer along a run (70_reset_and_hazards.md R299): Fx15 and a reset apart, a tick is the only step that changes it. -/

namespace Sys2Proof.Machine

/-! ### Shared operations -/

@[simp] theorem writeLogic_DT (s : State) (x : Reg) (b : Byte) : (writeLogic s x b).DT = s.DT := by
  rw [writeLogic_eq]; rfl

/-- A draw keeps the delay timer, performed or held. -/
@[simp] theorem drawWith_DT (ready : Bool) (x y : Reg) (n : Fin 16) (s : State) : (drawWith ready x y n s).DT = s.DT := by
  unfold drawWith
  cases s.config.displayWait <;> cases ready <;> rfl

@[simp] theorem storeRegs_DT (base : Word) (s : State) (n : Nat) : (storeRegs base s n).DT = s.DT := by
  rw [storeRegs_eq]; rfl

@[simp] theorem loadRegs_DT (base : Word) (s : State) (n : Nat) : (loadRegs base s n).DT = s.DT := by
  rw [loadRegs_eq]; rfl

/-! ### Every instruction, every cycle, every agent step -/

/-- Every instruction but Fx15 completes with the delay timer it found, on each of its outcomes. -/
theorem exec_DT_of_ne_ldDtVx {i : Instr} (hi : ∀ x : Reg, i ≠ .ldDtVx x) (s : State) :
    ∃ t : State, exec i s = .next t ∧ t.DT = s.DT := by
  cases i with
  | ldDtVx x => exact absurd rfl (hi x)
  | ret =>
    by_cases hsp : s.sp.val = 0
    · exact ⟨_, execRet_of_empty s hsp, rfl⟩
    · exact ⟨_, execRet_of_nonempty s (by omega), rfl⟩
  | call nnn =>
    by_cases hsp : s.sp.val = 16
    · exact ⟨_, execCall_of_full nnn s hsp, rfl⟩
    · exact ⟨_, execCall_of_room nnn s (by omega), rfl⟩
  | skp x =>
    cases hkey : keyIndex s x with
    | some k => exact ⟨_, execSkp_of_key s x k hkey, s.skipIf_DT _⟩
    | none => exact ⟨_, execSkp_of_none s x hkey, rfl⟩
  | sknp x =>
    cases hkey : keyIndex s x with
    | some k => exact ⟨_, execSknp_of_key s x k hkey, s.skipIf_DT _⟩
    | none => exact ⟨_, execSknp_of_none s x hkey, rfl⟩
  | ldVxK x =>
    cases hrel : s.rel with
    | some k => exact ⟨_, execLdVxK_of_some s x k hrel, rfl⟩
    | none => exact ⟨_, execLdVxK_of_none s x hrel, rfl⟩
  | seImm | sneImm | seReg | sneReg => exact ⟨_, rfl, s.skipIf_DT _⟩
  | orReg | andReg | xorReg => exact ⟨_, rfl, writeLogic_DT s _ _⟩
  | drw x y n => exact ⟨_, rfl, drawWith_DT _ x y n s⟩
  | stRegs x => exact ⟨_, rfl, storeRegs_DT s.I s _⟩
  | ldRegs x => exact ⟨_, rfl, loadRegs_DT s.I s _⟩
  | _ => exact ⟨_, rfl, rfl⟩

/-- A cycle that does not execute Fx15 keeps the delay timer: halted, with an illegal opcode, and with another instruction. -/
theorem cycle_DT {s : State} (h : s.halted = false → ∀ x : Reg, decode (fetchOp s) ≠ some (.ldDtVx x)) :
    (cycle s).DT = s.DT := by
  cases hrun : s.halted with
  | true => rw [cycle_of_step (step_of_halted hrun)]
  | false =>
    cases hdecode : decode (fetchOp s) with
    | none => rw [cycle_of_step (step_of_illegal hrun hdecode)]; rfl
    | some i =>
      have hi (x : Reg) : i ≠ .ldDtVx x := fun heq => h hrun x (heq ▸ hdecode)
      obtain ⟨t, ht, hdelay⟩ := exec_DT_of_ne_ldDtVx hi s.advance
      rw [cycle_of_step ((step_of_decode hrun hdecode).trans ht), hdelay, State.advance_DT]

theorem agentStep_DT_of_ne_tick {a : AgentStep} {s : State} (htick : a ≠ .tick) (hreset : a ≠ .reset)
    (hcycle : a = .cycle → s.halted = false → ∀ x : Reg, decode (fetchOp s) ≠ some (.ldDtVx x)) :
    (agentStep a s).DT = s.DT := by
  cases a with
  | cycle => exact cycle_DT (hcycle rfl)
  | tick => exact absurd rfl htick
  | press k => rfl
  | release k => exact onlyChanges_releaseKey k s .delay (by simp)
  | load bytes => exact onlyChanges_loadProgram bytes s .delay (by simp)
  | reset => exact absurd rfl hreset

/-- Settles O40, by induction on the run: a tick takes one decrement before those of the rest, floored at 0, and every other step
takes none. -/
theorem delayTimerCountsTheTicks : Obligations.DelayTimerCountsTheTicks := by
  intro l
  induction l with
  | nil => exact fun _ _ => rfl
  | cons a l ih =>
    rintro s ⟨hreset, hcycle, hrest⟩
    rw [runAgents_cons, ih _ hrest]
    by_cases htick : a = .tick
    · subst htick
      have hdecay : (agentStep .tick s).DT.toNat = s.DT.toNat - 1 := decay_toNat s.DT
      rw [List.count_cons_self, hdecay, Nat.sub_sub, Nat.add_comm]
    · rw [List.count_cons_of_ne htick, agentStep_DT_of_ne_tick htick hreset hcycle]

end Sys2Proof.Machine
end
